-- ==== Sys2Proof/Word.lean ====
section
/-! DEFINITION. The value types that cross the ports of the CORE: bytes, 32-bit values, byte sequences, code points
and texts (spec/00_scope.md R6 items 1 to 6, spec/30_encoding.md R54). Only types stand here; everything that computes
stands under Sys2Proof/Machine/. -/

namespace Sys2Proof

/-- A byte, an unsigned integer 0..255 with bits 7 down to 0 (R6 item 1). -/
abbrev Byte := BitVec 8

/-- `U32`: 0 .. 2^32 - 1 (R54). -/
abbrev U32 := BitVec 32

/-- `Bytes`: a finite byte sequence; index 0 is the first byte (R6 item 3, R54). -/
abbrev Bytes := List Byte

/-- One character of a `Text` as a port carries it: a code point of 21 bits (R54). Which 21-bit values are characters
is `isScalar` of Machine/Flags.lean. -/
abbrev CodePoint := BitVec 21

/-- `Text`: a finite sequence of characters (R6 item 6, R54). -/
abbrev Text := List CodePoint

/-- `Bytes4`: any four bytes, byte 0 first (R54). The same 32 bits carry a `Tag`, which is a `Bytes4` whose bytes are
all letters (spec/10_state.md R11): `isTag` of Machine/Flags.lean. -/
structure Bytes4 where
  b0 : Byte
  b1 : Byte
  b2 : Byte
  b3 : Byte
  deriving DecidableEq, Repr, Inhabited

end Sys2Proof
end

