-- ==== Sys2Proof/Syntax.lean ====
section
/-! DEFINITION. The syntax: the Chunk record, the seven port types and their values (spec/30_encoding.md R54), the
request (R53) and the 18 operations with their operands (R58; one constructor per row of spec/opcode_table.json).
Operands are what a port can carry: a term may break its type's invariant (a `Tag` operand with a digit in it), and
Sys2Proof/WellFormed.lean says which terms are admitted. -/

namespace Sys2Proof

/-- The record of spec/10_state.md R12. Its invariants I-len, I-crc and I-max are `isChunk` of Machine/Operands.lean. -/
structure Chunk where
  length : U32
  type : Bytes4
  data : Bytes
  crc : U32
  deriving DecidableEq, Repr

/-- The operand and result types of R54. -/
inductive PortType where
  | bit | u32 | bytes4 | tag | bytes | text | chunk
  deriving DecidableEq, Repr

/-- A value on a port, of one of the types of R54. -/
inductive PortValue where
  | bit (v : Bool)
  | u32 (v : U32)
  | bytes4 (v : Bytes4)
  | tag (v : Bytes4)
  | bytes (v : Bytes)
  | text (v : Text)
  | chunk (v : Chunk)
  deriving DecidableEq, Repr

/-- Format REQ (R53): an 8-bit opcode and the operands. Any opcode and any operands can stand on the port. -/
structure Request where
  op : BitVec 8
  args : List PortValue
  deriving DecidableEq, Repr

/-- The 18 operations (R58), each with the operands it takes. -/
inductive Instr where
  | crc32 (m : Bytes)
  | tagFromBytes (b : Bytes4)
  | tagFromText (x : Text)
  | tagBytes (t : Bytes4)
  | tagIsCritical (t : Bytes4)
  | tagIsPublic (t : Bytes4)
  | tagIsReservedBitValid (t : Bytes4)
  | tagIsSafeToCopy (t : Bytes4)
  | tagIsValid (t : Bytes4)
  | tagDisplay (t : Bytes4)
  | chunkNew (t : Bytes4) (d : Bytes)
  | chunkLength (c : Chunk)
  | chunkType (c : Chunk)
  | chunkData (c : Chunk)
  | chunkCrc (c : Chunk)
  | chunkDataAsText (c : Chunk)
  | chunkSerialize (c : Chunk)
  | chunkParse (f : Bytes)
  deriving DecidableEq, Repr

end Sys2Proof
end

