-- ==== Sys2Proof/Decode.lean ====
section
/-! DEFINITION. Format REQ (spec/30_encoding.md R53, R58, R59): the decoder, total on every request and rejecting by name,
and after it the encoder, written from the same table. The spec fixes the opcode's eight bits and the types of the
operands, and leaves open how an operand is carried on wires (R54, decision D2), so operands stand as typed values
(log entry 6). -/

namespace Sys2Proof

/-- The 18 rows of the operation map (R58). -/
inductive Opcode where
  | crc32
  | tagFromBytes | tagFromText | tagBytes | tagIsCritical | tagIsPublic | tagIsReservedBitValid | tagIsSafeToCopy
  | tagIsValid | tagDisplay
  | chunkNew | chunkLength | chunkType | chunkData | chunkCrc | chunkDataAsText | chunkSerialize | chunkParse
  deriving DecidableEq, Repr

/-- Why a request does not decode. -/
inductive Reject where
  /-- the opcode is one of the 238 reserved values (R59) -/
  | reservedOpcode (op : BitVec 8)
  /-- the operands are not of the number and types the opcode takes (R53, R58; log entry 14) -/
  | operandShape (op : BitVec 8)
  deriving DecidableEq, Repr

/-- The field `ZERO`, bits 7..6 of the opcode (R53). -/
def zeroField (op : BitVec 8) : BitVec 2 := op.extractLsb' 6 2

/-- The field `UNIT`, bits 5..4 (R53). -/
def unitField (op : BitVec 8) : BitVec 2 := op.extractLsb' 4 2

/-- The field `FN`, bits 3..0 (R53). -/
def fnField (op : BitVec 8) : BitVec 4 := op.extractLsb' 0 4

/-- The functions of the CRC unit, `UNIT = 00` (R58). -/
def crcFunction (fn : BitVec 4) : Option Opcode :=
  match fn.toNat with
  | 1 => some .crc32
  | _ => none

/-- The functions of the TAG unit, `UNIT = 01` (R58). -/
def tagFunction (fn : BitVec 4) : Option Opcode :=
  match fn.toNat with
  | 0 => some .tagFromBytes
  | 1 => some .tagFromText
  | 2 => some .tagBytes
  | 3 => some .tagIsCritical
  | 4 => some .tagIsPublic
  | 5 => some .tagIsReservedBitValid
  | 6 => some .tagIsSafeToCopy
  | 7 => some .tagIsValid
  | 8 => some .tagDisplay
  | _ => none

/-- The functions of the CHUNK unit, `UNIT = 10` (R58). -/
def chunkFunction (fn : BitVec 4) : Option Opcode :=
  match fn.toNat with
  | 0 => some .chunkNew
  | 1 => some .chunkLength
  | 2 => some .chunkType
  | 3 => some .chunkData
  | 4 => some .chunkCrc
  | 5 => some .chunkDataAsText
  | 6 => some .chunkSerialize
  | 7 => some .chunkParse
  | _ => none

/-- The operation an opcode byte selects; none for a reserved value (R53, R59). -/
def opcodeOfByte (op : BitVec 8) : Option Opcode :=
  if zeroField op ≠ 0#2 then none
  else match (unitField op).toNat with
  | 0 => crcFunction (fnField op)
  | 1 => tagFunction (fnField op)
  | 2 => chunkFunction (fnField op)
  | _ => none

/-- The operands of an operation, of the types the table of R58 gives it. -/
def decodeOperands (o : Opcode) (args : List PortValue) : Option Instr :=
  match o, args with
  | .crc32, [.bytes m] => some (.crc32 m)
  | .tagFromBytes, [.bytes4 b] => some (.tagFromBytes b)
  | .tagFromText, [.text x] => some (.tagFromText x)
  | .tagBytes, [.tag t] => some (.tagBytes t)
  | .tagIsCritical, [.tag t] => some (.tagIsCritical t)
  | .tagIsPublic, [.tag t] => some (.tagIsPublic t)
  | .tagIsReservedBitValid, [.tag t] => some (.tagIsReservedBitValid t)
  | .tagIsSafeToCopy, [.tag t] => some (.tagIsSafeToCopy t)
  | .tagIsValid, [.tag t] => some (.tagIsValid t)
  | .tagDisplay, [.tag t] => some (.tagDisplay t)
  | .chunkNew, [.tag t, .bytes d] => some (.chunkNew t d)
  | .chunkLength, [.chunk c] => some (.chunkLength c)
  | .chunkType, [.chunk c] => some (.chunkType c)
  | .chunkData, [.chunk c] => some (.chunkData c)
  | .chunkCrc, [.chunk c] => some (.chunkCrc c)
  | .chunkDataAsText, [.chunk c] => some (.chunkDataAsText c)
  | .chunkSerialize, [.chunk c] => some (.chunkSerialize c)
  | .chunkParse, [.bytes f] => some (.chunkParse f)
  | _, _ => none

/-- The instruction a request carries, or why there is none. -/
def decode (r : Request) : Except Reject Instr :=
  match opcodeOfByte r.op with
  | none => .error (.reservedOpcode r.op)
  | some o =>
    match decodeOperands o r.args with
    | none => .error (.operandShape r.op)
    | some i => .ok i

/-- The row of R58 an instruction belongs to. -/
def Instr.opcode : Instr → Opcode
  | .crc32 _ => .crc32
  | .tagFromBytes _ => .tagFromBytes
  | .tagFromText _ => .tagFromText
  | .tagBytes _ => .tagBytes
  | .tagIsCritical _ => .tagIsCritical
  | .tagIsPublic _ => .tagIsPublic
  | .tagIsReservedBitValid _ => .tagIsReservedBitValid
  | .tagIsSafeToCopy _ => .tagIsSafeToCopy
  | .tagIsValid _ => .tagIsValid
  | .tagDisplay _ => .tagDisplay
  | .chunkNew _ _ => .chunkNew
  | .chunkLength _ => .chunkLength
  | .chunkType _ => .chunkType
  | .chunkData _ => .chunkData
  | .chunkCrc _ => .chunkCrc
  | .chunkDataAsText _ => .chunkDataAsText
  | .chunkSerialize _ => .chunkSerialize
  | .chunkParse _ => .chunkParse

/-- The column `op` of R58. -/
def Opcode.byte : Opcode → BitVec 8
  | .crc32 => 0x01#8
  | .tagFromBytes => 0x10#8
  | .tagFromText => 0x11#8
  | .tagBytes => 0x12#8
  | .tagIsCritical => 0x13#8
  | .tagIsPublic => 0x14#8
  | .tagIsReservedBitValid => 0x15#8
  | .tagIsSafeToCopy => 0x16#8
  | .tagIsValid => 0x17#8
  | .tagDisplay => 0x18#8
  | .chunkNew => 0x20#8
  | .chunkLength => 0x21#8
  | .chunkType => 0x22#8
  | .chunkData => 0x23#8
  | .chunkCrc => 0x24#8
  | .chunkDataAsText => 0x25#8
  | .chunkSerialize => 0x26#8
  | .chunkParse => 0x27#8

/-- The column `mnemonic` of R58, which is also how a request is written (R63). -/
def Opcode.mnemonic : Opcode → String
  | .crc32 => "CRC32"
  | .tagFromBytes => "TAG_FROM_BYTES"
  | .tagFromText => "TAG_FROM_TEXT"
  | .tagBytes => "TAG_BYTES"
  | .tagIsCritical => "TAG_IS_CRITICAL"
  | .tagIsPublic => "TAG_IS_PUBLIC"
  | .tagIsReservedBitValid => "TAG_IS_RESERVED_BIT_VALID"
  | .tagIsSafeToCopy => "TAG_IS_SAFE_TO_COPY"
  | .tagIsValid => "TAG_IS_VALID"
  | .tagDisplay => "TAG_DISPLAY"
  | .chunkNew => "CHUNK_NEW"
  | .chunkLength => "CHUNK_LENGTH"
  | .chunkType => "CHUNK_TYPE"
  | .chunkData => "CHUNK_DATA"
  | .chunkCrc => "CHUNK_CRC"
  | .chunkDataAsText => "CHUNK_DATA_AS_TEXT"
  | .chunkSerialize => "CHUNK_SERIALIZE"
  | .chunkParse => "CHUNK_PARSE"

/-- The column `operands` of R58. -/
def Opcode.operandTypes : Opcode → List PortType
  | .crc32 => [.bytes]
  | .tagFromBytes => [.bytes4]
  | .tagFromText => [.text]
  | .tagBytes | .tagIsCritical | .tagIsPublic | .tagIsReservedBitValid | .tagIsSafeToCopy | .tagIsValid
  | .tagDisplay => [.tag]
  | .chunkNew => [.tag, .bytes]
  | .chunkLength | .chunkType | .chunkData | .chunkCrc | .chunkDataAsText | .chunkSerialize => [.chunk]
  | .chunkParse => [.bytes]

/-- The column `result type` of R58. -/
def Opcode.resultType : Opcode → PortType
  | .crc32 | .chunkLength | .chunkCrc => .u32
  | .tagFromBytes | .tagFromText | .chunkType => .tag
  | .tagBytes => .bytes4
  | .tagIsCritical | .tagIsPublic | .tagIsReservedBitValid | .tagIsSafeToCopy | .tagIsValid => .bit
  | .tagDisplay | .chunkDataAsText => .text
  | .chunkNew | .chunkParse => .chunk
  | .chunkData | .chunkSerialize => .bytes

/-- The operands of an instruction, in the order of R58. -/
def Instr.operands : Instr → List PortValue
  | .crc32 m => [.bytes m]
  | .tagFromBytes b => [.bytes4 b]
  | .tagFromText x => [.text x]
  | .tagBytes t => [.tag t]
  | .tagIsCritical t => [.tag t]
  | .tagIsPublic t => [.tag t]
  | .tagIsReservedBitValid t => [.tag t]
  | .tagIsSafeToCopy t => [.tag t]
  | .tagIsValid t => [.tag t]
  | .tagDisplay t => [.tag t]
  | .chunkNew t d => [.tag t, .bytes d]
  | .chunkLength c => [.chunk c]
  | .chunkType c => [.chunk c]
  | .chunkData c => [.chunk c]
  | .chunkCrc c => [.chunk c]
  | .chunkDataAsText c => [.chunk c]
  | .chunkSerialize c => [.chunk c]
  | .chunkParse f => [.bytes f]

/-- The request that carries an instruction. -/
def encode (i : Instr) : Request := { op := i.opcode.byte, args := i.operands }

/-- The operand of a type whose port bits are all zero: four zero bytes, or a length of zero. -/
def PortType.zero : PortType → PortValue
  | .bit => .bit false
  | .u32 => .u32 0#32
  | .bytes4 => .bytes4 { b0 := 0#8, b1 := 0#8, b2 := 0#8, b3 := 0#8 }
  | .tag => .tag { b0 := 0#8, b1 := 0#8, b2 := 0#8, b3 := 0#8 }
  | .bytes => .bytes []
  | .text => .text []
  | .chunk =>
    .chunk { length := 0#32, type := { b0 := 0#8, b1 := 0#8, b2 := 0#8, b3 := 0#8 }, data := [], crc := 0#32 }

/-- The request of a word of spec/opcode_table.json: bits 7..0 are the opcode and every operand bit is 0. A reserved
opcode takes no operands. (log entry 8) -/
def requestOfWord (w : Nat) : Request :=
  let op := BitVec.ofNat 8 w
  { op := op, args := match opcodeOfByte op with
                      | some o => o.operandTypes.map PortType.zero
                      | none => [] }

/-- The instruction the decoder reads from a word of the opcode table. A table word is the eight bits of the opcode; a
word with bits above them is none of this table's. -/
def decodeTableWord (nbits w : Nat) : Option Instr :=
  if nbits = 8 ∧ w < 2 ^ 8 then
    match decode (requestOfWord w) with
    | .ok i => some i
    | .error _ => none
  else none

end Sys2Proof
end

