-- ==== Sys2Proof/Machine/Bytes.lean ====
section
/-! DEFINITION. Byte order and buffer access: big-endian words (spec/00_scope.md R6 item 4, spec/20_memory.md R32),
`MemRead` and `MemWrite` (R6 item 10), and the slices the rules write. The CORE has no memory of its own: a buffer is a
finite byte sequence indexed from 0 (R30). -/

namespace Sys2Proof

/-- The four bytes in order, byte 0 first. -/
def Bytes4.toList (v : Bytes4) : Bytes := [v.b0, v.b1, v.b2, v.b3]

/-- `be32(b0, b1, b2, b3) = b0*2^24 + b1*2^16 + b2*2^8 + b3` (R6 item 4). -/
def be32 (v : Bytes4) : U32 :=
  BitVec.ofNat 32 (v.b0.toNat * 2 ^ 24 + v.b1.toNat * 2 ^ 16 + v.b2.toNat * 2 ^ 8 + v.b3.toNat)

/-- `to_be32(v) = [v[31:24], v[23:16], v[15:8], v[7:0]]` (R6 item 4). -/
def toBe32 (v : U32) : Bytes4 :=
  { b0 := v.extractLsb' 24 8, b1 := v.extractLsb' 16 8, b2 := v.extractLsb' 8 8, b3 := v.extractLsb' 0 8 }

/-- `MemRead(buf, off, n)`: `buf[off..off+n)`, defined only when `off + n <= len(buf)` (R6 item 10). The `none` is the
case no operation reaches (R36, R136). -/
def memRead (buf : Bytes) (off n : Nat) : Option Bytes :=
  if off + n ≤ buf.length then some ((buf.drop off).take n) else none

/-- `MemRead(buf, off, 4)` as the four bytes. -/
def memRead4 (buf : Bytes) (off : Nat) : Option Bytes4 :=
  match memRead buf off 4 with
  | some [a, b, c, d] => some { b0 := a, b1 := b, b2 := c, b3 := d }
  | _ => none

/-- `MemWrite(buf, off, n, v)`: sets `buf[off..off+n)` to the `n`-byte sequence `v` (R6 item 10). -/
def memWrite (buf : Bytes) (off n : Nat) (v : Bytes) : Option Bytes :=
  if v.length = n ∧ off + n ≤ buf.length then some (buf.take off ++ v ++ buf.drop (off + n)) else none

/-- `zext_21` of a byte (spec/40_tag.md R79). -/
def zext21 (b : Byte) : CodePoint := b.zeroExtend 21

/-- The low 8 bits of a code point: the byte a character `ch <= 0x7F` becomes (spec/30_encoding.md R57). -/
def lowByte (ch : CodePoint) : Byte := ch.truncate 8

end Sys2Proof
end

