-- ==== Sys2Proof/Config.lean ====
section
/-! DEFINITION. What one instance of the CORE fixes (spec/00_scope.md R5) and the free values: what the spec leaves
without a value. A free value is an opaque constant without a body, so nothing can be proved of it. -/

namespace Sys2Proof

/-- `LEN_POLICY` (R5): what `CHUNK_PARSE` does with the length field of the wire. -/
inductive LenPolicy where
  /-- the declared length must equal the buffer length minus 12 -/
  | strict
  /-- the declared length is ignored for framing (PME's reference behaviour) -/
  | infer
  deriving DecidableEq, Repr

/-- The parameters of an instance (R5), fixed for its life: no operation reads or writes one as data and no step
changes one. They stand in the state so that a statement about every state is about every instance. -/
structure Params where
  /-- `MAX_PAYLOAD`: 32 bits wide, which is R5's constraint `0 <= MAX_PAYLOAD <= 2^32 - 1` -/
  maxPayload : BitVec 32
  lenPolicy : LenPolicy
  deriving DecidableEq, Repr

namespace Config

/-- `MAX_PAYLOAD` of this hardware: OPEN in the spec (R5, decision D4), hence a free value.
(log entry 2; safe: nothing can be proved from a particular bound) -/
opaque maxPayload : BitVec 32

/-- `LEN_POLICY` of this hardware: STRICT (R5, decision D3; spec/90_conflicts.md C3; log entry 9). -/
def lenPolicy : LenPolicy := .strict

/-- The parameters the instance is built with. -/
def params : Params := { maxPayload := maxPayload, lenPolicy := lenPolicy }

/-- The contents of the six working registers between operations: unspecified (spec/10_state.md R14, R21;
spec/93_implementation_defined.md U8), hence free, a fresh value for each operation. (log entry 4; safe) -/
opaque freeAcc : Nat → BitVec 32
opaque freeIdx : Nat → BitVec 33
opaque freeLenr : Nat → BitVec 32
opaque freeTagr : Nat → BitVec 32
opaque freeCrcr : Nat → BitVec 32
opaque freeErrr : Nat → BitVec 3

/-- What byte `k` of a fresh output buffer holds before it is written (spec/42_chunk.md R108 says only "a buffer of
12 + N bytes"). (log entry 5; safe) -/
opaque freeByte : Nat → BitVec 8

end Config

end Sys2Proof
end

