-- ==== Sys2Proof/Machine/Flags.lean ====
section
/-! DEFINITION. Every predicate the CORE computes of bytes and characters: the letter test, the case bit and the five tag
predicates, which are computed from the tag bytes each time and never stored (spec/10_state.md R16; spec/40_tag.md R70,
R74 to R78), and the scalar-value test of spec/00_scope.md R6 item 6. -/

namespace Sys2Proof

/-- `is_letter(b)` (R70): `0x41 <= b <= 0x5A` or `0x61 <= b <= 0x7A`. -/
def isLetter (b : Byte) : Bool :=
  (0x41 ≤ b.toNat && b.toNat ≤ 0x5A) || (0x61 ≤ b.toNat && b.toNat ≤ 0x7A)

/-- `case_bit(b) = b[5]` (R70). -/
def caseBit (b : Byte) : Bool := b.getLsbD 5

/-- A `Char` is an integer in `0..0x10FFFF` outside `0xD800..0xDFFF` (R6 item 6). -/
def isScalar (ch : CodePoint) : Bool :=
  ch.toNat ≤ 0x10FFFF && !(0xD800 ≤ ch.toNat && ch.toNat ≤ 0xDFFF)

/-- `is_ascii_letter(ch)` is `ch <= 0x7F and is_letter(ch)` (R70). -/
def isAsciiLetter (ch : CodePoint) : Bool :=
  ch.toNat ≤ 0x7F && isLetter (ch.truncate 8)

/-- The invariant of a Tag: every byte is a letter (spec/10_state.md R11). -/
def isTag (t : Bytes4) : Bool :=
  isLetter t.b0 && isLetter t.b1 && isLetter t.b2 && isLetter t.b3

/-- critical: `t[0][5] = 0` (R74). -/
def isCritical (t : Bytes4) : Bool := !caseBit t.b0

/-- public: `t[1][5] = 0` (R75). -/
def isPublic (t : Bytes4) : Bool := !caseBit t.b1

/-- reserved-bit-valid: `t[2][5] = 0` (R76). -/
def isReservedBitValid (t : Bytes4) : Bool := !caseBit t.b2

/-- safe to copy: `t[3][5] = 1`, the one predicate that is true when the bit is set (R77). -/
def isSafeToCopy (t : Bytes4) : Bool := caseBit t.b3

/-- valid: equivalent to reserved-bit-valid (R78). -/
def isValid (t : Bytes4) : Bool := isReservedBitValid t

end Sys2Proof
end

