-- ==== Sys2Proof/Machine/Operands.lean ====
section
/-! DEFINITION. Which port values are values of their type: the operand forms of the 18 operations and the admission
bounds (spec/60_exceptions.md R134, spec/30_encoding.md R61). A request that carries anything else is refused. -/

namespace Sys2Proof

/-- The type of a port value (R54). -/
def PortValue.portType : PortValue → PortType
  | .bit _ => .bit
  | .u32 _ => .u32
  | .bytes4 _ => .bytes4
  | .tag _ => .tag
  | .bytes _ => .bytes
  | .text _ => .text
  | .chunk _ => .chunk

/-- A `Text` holds scalar values only (spec/00_scope.md R6 item 6). -/
def isText (x : Text) : Bool := x.all isScalar

/-- Invariant I-len: `length = len(data)` (spec/10_state.md R12). -/
def Chunk.lengthOk (c : Chunk) : Bool := c.length.toNat = c.data.length

/-- Invariant I-crc: `crc = crc32(type ++ data)` (R12). -/
def Chunk.crcOk (c : Chunk) : Bool := c.crc = crc32 (c.type.toList ++ c.data)

/-- Invariant I-max: `len(data) <= MAX_PAYLOAD` (R12). -/
def Chunk.maxOk (p : Params) (c : Chunk) : Bool := c.data.length ≤ p.maxPayload.toNat

/-- A record is a Chunk: its `type` is a Tag and the three invariants hold (R12, R134). -/
def isChunk (p : Params) (c : Chunk) : Bool :=
  isTag c.type && c.lengthOk && c.maxOk p && c.crcOk

/-- The bound on the payload of `CHUNK_NEW` (R134). -/
def payloadFits (p : Params) (d : Bytes) : Bool := d.length ≤ p.maxPayload.toNat

/-- The bound on the buffer of `CHUNK_PARSE` (R134). -/
def frameFits (p : Params) (f : Bytes) : Bool := f.length ≤ p.maxPayload.toNat + 12

/-- The bound on the message of `CRC32`, which admits `type ++ data` of the largest Chunk (R134; spec/90_conflicts.md C8). -/
def messageFits (p : Params) (m : Bytes) : Bool := m.length ≤ p.maxPayload.toNat + 4

end Sys2Proof
end

