-- ==== Sys2Proof/Machine/State.lean ====
section
/-! DEFINITION. The state of one instance, exactly the pieces of the table of spec/10_state.md R21: the request in flight
(R22), the result port, the six working registers (R14) and the build-time parameters (spec/00_scope.md R5); beside them
the model's own counter that numbers the free values. There is no other architectural state (R10, R13, R15 to R19). -/

namespace Sys2Proof.Machine

/-- The working registers of R14, at the widths R14 gives. They exist while an operation runs; between operations their
contents are unspecified. -/
structure Work where
  /-- `ACC`: the CRC accumulator, in reflected bit order -/
  acc : BitVec 32
  /-- `IDX`: the index of the next byte of the buffer being read or written -/
  idx : BitVec 33
  /-- `LENR`: the declared or computed length -/
  lenr : BitVec 32
  /-- `TAGR`: the tag bytes under validation, 4 x 8 bits -/
  tagr : Bytes4
  /-- `CRCR`: the stored checksum -/
  crcr : BitVec 32
  /-- `ERRR`: the error code of the response -/
  errr : BitVec 3
  deriving DecidableEq, Repr

/-- Format RSP (spec/30_encoding.md R55): a 3-bit status and, when it is 0, a result value. -/
structure Response where
  st : BitVec 3
  value : Option PortValue
  deriving DecidableEq, Repr

structure State where
  /-- `MAX_PAYLOAD` and `LEN_POLICY` of this instance (R5) -/
  params : Params
  /-- the request accepted and not yet answered; none when the CORE is idle (R22) -/
  inFlight : Option Request
  /-- the response on the result port; none when no response is pending (R21) -/
  response : Option Response
  /-- the working registers (R14) -/
  work : Work
  /-- the model's own: how many free values have been taken -/
  freeCount : Nat
  deriving DecidableEq, Repr

/-- Why a step ends in a fault. -/
inductive Fault where
  /-- raised by the shared operation that ends an operation (`deliver`) where a buffer read or write was out of bounds:
  PME's "genuine internal invariant violation", which the spec says no request reaches (spec/20_memory.md R36,
  spec/60_exceptions.md R136, spec/93_implementation_defined.md U7; log entry 15). Safe: no value is invented. -/
  | internalInvariant
  deriving DecidableEq, Repr

/-- Why a request is refused: the spec gives it no response (spec/60_exceptions.md R134). Each is safe: nothing can be
proved about what an implementation does with such a request. The names are the model's (log entry 17). -/
inductive Refusal where
  /-- raised by an arm of `exec` that has no meaning yet; none is left -/
  | notModelled (mnemonic : String)
  /-- raised by `step`: a reserved opcode (spec/30_encoding.md R59) -/
  | reservedOpcode (op : BitVec 8)
  /-- raised by `step`: operands that are not of the number and types the opcode takes (R53, R58) -/
  | operandShape (op : BitVec 8)
  /-- raised by the TAG operations 0x12 to 0x18 and CHUNK_NEW: a Tag operand with a byte that is not a letter (R134) -/
  | notATag
  /-- raised by the CHUNK operations 0x21 to 0x26: a record that breaks a Chunk invariant (R134) -/
  | notAChunk
  /-- raised by TAG_FROM_TEXT: a text that holds a value which is not a character (R134) -/
  | notAText
  /-- raised by CRC32, CHUNK_NEW and CHUNK_PARSE: a buffer over the bound of the instance (R134) -/
  | oversize
  /-- raised by the host's move `issue`: a request while another is in flight (spec/70_reset_and_hazards.md R145) -/
  | requestInFlight
  deriving DecidableEq, Repr

/-- The outcome of a step of this machine. -/
abbrev Result := Host.Outcome State Fault Refusal

/-- The error codes (spec/60_exceptions.md R120). -/
inductive Err where
  | invalidTypeBytes
  | invalidCharacter
  | invalidLength
  | truncated
  | checksumMismatch
  | notUtf8
  deriving DecidableEq, Repr

/-- The kinds K1 to K4 into which PME groups the errors (R120). -/
inductive ErrKind where
  | k1 | k2 | k3 | k4
  deriving DecidableEq, Repr

/-- How an operation ends (spec/00_scope.md R6 item 8): with a value, with the error code in ERRR, or by the abort that no
request reaches (R136). -/
inductive Done where
  | returned (v : PortValue) (w : Work)
  | raised (w : Work)
  | aborted
  deriving DecidableEq, Repr

/-- The value the model names for the working registers at reset, where the spec leaves them unspecified (R21).
(DESIGN CHOICE, log entry 3; unsafe in form, and no response depends on it) -/
def Work.atReset : Work :=
  { acc := 0#32, idx := 0#33, lenr := 0#32, tagr := { b0 := 0#8, b1 := 0#8, b2 := 0#8, b3 := 0#8 }, crcr := 0#32,
    errr := 0#3 }

/-- The machine right after reset (spec/70_reset_and_hazards.md R140, R21): idle, no response pending, the parameters as
built. -/
def State.reset : State :=
  { params := Config.params, inFlight := none, response := none, work := Work.atReset, freeCount := 0 }

end Sys2Proof.Machine
end

