-- ==== Sys2Proof/Machine/Ops.lean ====
section
/-! DEFINITION. The operations every meaning shares: the start of an operation, the walk of a buffer through the CRC
accumulator, `raise` (this hardware's counterpart of taking an exception), `return`, the delivery of the response, and
the admission of operands. How far the working registers are followed is log entry 16. -/

namespace Sys2Proof.Machine

/-- The status code of an error (spec/30_encoding.md R56, spec/60_exceptions.md R120). -/
def Err.code : Err → BitVec 3
  | .invalidTypeBytes => 1#3
  | .invalidCharacter => 2#3
  | .invalidLength => 3#3
  | .truncated => 4#3
  | .checksumMismatch => 5#3
  | .notUtf8 => 6#3

/-- The kind of an error (R120). -/
def Err.kind : Err → ErrKind
  | .invalidTypeBytes | .invalidCharacter => .k1
  | .invalidLength | .truncated => .k2
  | .checksumMismatch => .k3
  | .notUtf8 => .k4

/-- The column "errors it can raise" of R58; `CHUNK_PARSE` raises `InvalidLength` only under STRICT. -/
def raisable (p : LenPolicy) : Instr → List Err
  | .tagFromBytes _ => [.invalidTypeBytes]
  | .tagFromText _ => [.invalidLength, .invalidCharacter]
  | .chunkDataAsText _ => [.notUtf8]
  | .chunkParse _ =>
    match p with
    | .strict => [.truncated, .invalidLength, .invalidTypeBytes, .checksumMismatch]
    | .infer => [.truncated, .invalidTypeBytes, .checksumMismatch]
  | .crc32 _ | .tagBytes _ | .tagIsCritical _ | .tagIsPublic _ | .tagIsReservedBitValid _ | .tagIsSafeToCopy _
  | .tagIsValid _ | .tagDisplay _ | .chunkNew _ _ | .chunkLength _ | .chunkType _ | .chunkData _ | .chunkCrc _
  | .chunkSerialize _ => []

/-- Unspecified contents of the working registers: the `k`-th free value (spec/10_state.md R21; log entry 4). -/
def Work.free (k : Nat) : Work :=
  { acc := Config.freeAcc k, idx := Config.freeIdx k, lenr := Config.freeLenr k, tagr := toBe32 (Config.freeTagr k),
    crcr := Config.freeCrcr k, errr := Config.freeErrr k }

/-- The start of an operation: ERRR and IDX are set to 0 (spec/10_state.md R14). The other registers keep whatever they
hold until the operation writes them. -/
def Work.start (w : Work) : Work := { w with errr := 0#3, idx := 0#33 }

/-- ACC before the first byte (R14). -/
def Work.initAcc (w : Work) : Work := { w with acc := crcInit }

/-- One byte through the accumulator (spec/41_crc32.md R91, R92). -/
def Work.crcByte (w : Work) (b : Byte) : Work := { w with acc := crcStep w.acc b, idx := w.idx + 1#33 }

/-- A buffer through the accumulator, first byte first; IDX starts at 0 for each buffer. -/
def Work.crcWalk (w : Work) (m : Bytes) : Work := m.foldl Work.crcByte { w with idx := 0#33 }

/-- The checksum the accumulator stands for. -/
def Work.crcOut (w : Work) : U32 := w.acc ^^^ crcXorOut

/-- `raise E` (spec/00_scope.md R6 item 8; spec/60_exceptions.md R128): ERRR takes the code and the operation ends
without a result. Nothing else is saved and control goes nowhere: there is no cause register, no saved program counter,
no mode and no handler. There is no return from it either (R129): the next request simply runs. -/
def raise (e : Err) (w : Work) : Done := .raised { w with errr := e.code }

/-- The response is delivered and the CORE is idle; the working registers are unspecified from here on. -/
def State.answer (s : State) (r : Response) : State :=
  { s with inFlight := none, response := some r, work := Work.free s.freeCount, freeCount := s.freeCount + 1 }

/-- The end of an operation: the status of the response is ERRR, and there is a result value only on a return
(spec/30_encoding.md R55, spec/60_exceptions.md R128). -/
def deliver (d : Done) (s : State) : Result :=
  match d with
  | .returned v w => .next (s.answer { st := w.errr, value := some v })
  | .raised w => .next (s.answer { st := w.errr, value := none })
  | .aborted => .fault .internalInvariant

/-- Runs an operation on a Tag operand, which is refused when it is not a Tag (R134). TAGR takes the operand bytes
(spec/10_state.md R14). -/
def withTag (t : Bytes4) (body : Work → Done) (s : State) : Result :=
  if isTag t then deliver (body { s.work.start with tagr := t }) s else .refused .notATag

/-- Runs an operation on a Chunk operand, which is refused when it breaks an invariant (R134). -/
def withChunk (c : Chunk) (body : Work → Done) (s : State) : Result :=
  if isChunk s.params c then deliver (body s.work.start) s else .refused .notAChunk

/-- Runs an operation on a buffer, which is refused when it is over its bound (R134). -/
def withBound (fits : Bool) (body : Work → Done) (s : State) : Result :=
  if fits then deliver (body s.work.start) s else .refused .oversize

end Sys2Proof.Machine
end

