-- ==== Sys2Proof/Machine/Utf8.lean ====
section
/-! DEFINITION. Well-formed UTF-8 (spec/42_chunk.md R106): the rows of the rule's table, the four code-point formulas and
`utf8_decode`. `utf8Encode`, the shortest form of one character, is what R106's closing paragraph speaks of; no operation
uses it, the claims about `utf8Decode` do. -/

namespace Sys2Proof

/-- A row of R106's table: how many bytes the unit has, and for three and four bytes the range of the second byte.
Every other byte after the first has the range `80..BF`. -/
inductive Utf8Row where
  | one
  | two
  | three (lo hi : Nat)
  | four (lo hi : Nat)
  deriving DecidableEq, Repr

/-- The row whose first-byte range holds `b`; none for `80..C1` and `F5..FF` (R106). -/
def utf8Row (b : Byte) : Option Utf8Row :=
  let n := b.toNat
  if n ≤ 0x7F then some .one
  else if 0xC2 ≤ n ∧ n ≤ 0xDF then some .two
  else if n = 0xE0 then some (.three 0xA0 0xBF)
  else if 0xE1 ≤ n ∧ n ≤ 0xEC then some (.three 0x80 0xBF)
  else if n = 0xED then some (.three 0x80 0x9F)
  else if 0xEE ≤ n ∧ n ≤ 0xEF then some (.three 0x80 0xBF)
  else if n = 0xF0 then some (.four 0x90 0xBF)
  else if 0xF1 ≤ n ∧ n ≤ 0xF3 then some (.four 0x80 0xBF)
  else if n = 0xF4 then some (.four 0x80 0x8F)
  else none

/-- Is the byte in the range `lo..hi` of its column? -/
def inRange (lo hi : Nat) (b : Byte) : Bool := lo ≤ b.toNat && b.toNat ≤ hi

/-- `b AND mask`, as a 21-bit value. -/
def maskedTo21 (b mask : Byte) : CodePoint := (b &&& mask).zeroExtend 21

/-- The character of a two-byte unit (R106). -/
def utf8Char2 (b0 b1 : Byte) : CodePoint :=
  maskedTo21 b0 0x1F#8 <<< 6 ||| maskedTo21 b1 0x3F#8

/-- The character of a three-byte unit (R106). -/
def utf8Char3 (b0 b1 b2 : Byte) : CodePoint :=
  maskedTo21 b0 0x0F#8 <<< 12 ||| maskedTo21 b1 0x3F#8 <<< 6 ||| maskedTo21 b2 0x3F#8

/-- The character of a four-byte unit (R106). -/
def utf8Char4 (b0 b1 b2 b3 : Byte) : CodePoint :=
  maskedTo21 b0 0x07#8 <<< 18 ||| maskedTo21 b1 0x3F#8 <<< 12 ||| maskedTo21 b2 0x3F#8 <<< 6 ||| maskedTo21 b3 0x3F#8

/-- `utf8_decode(D)` (R106): the text, or `none` for the failure `NotUtf8`. A unit cut short by the end of `D`, a first
byte of no row and a later byte outside its range all fail. -/
def utf8Decode : Bytes → Option Text
  | [] => some []
  | b0 :: rest =>
    match utf8Row b0 with
    | none => none
    | some .one => (utf8Decode rest).map (b0.zeroExtend 21 :: ·)
    | some .two =>
      match rest with
      | b1 :: rest =>
        if inRange 0x80 0xBF b1 then (utf8Decode rest).map (utf8Char2 b0 b1 :: ·) else none
      | _ => none
    | some (.three lo hi) =>
      match rest with
      | b1 :: b2 :: rest =>
        if inRange lo hi b1 && inRange 0x80 0xBF b2 then (utf8Decode rest).map (utf8Char3 b0 b1 b2 :: ·) else none
      | _ => none
    | some (.four lo hi) =>
      match rest with
      | b1 :: b2 :: b3 :: rest =>
        if inRange lo hi b1 && inRange 0x80 0xBF b2 && inRange 0x80 0xBF b3 then
          (utf8Decode rest).map (utf8Char4 b0 b1 b2 b3 :: ·)
        else none
      | _ => none

/-- A continuation byte that carries six bits of a character. -/
def continuation (sixBits : Nat) : Byte := BitVec.ofNat 8 (0x80 + sixBits % 64)

/-- The shortest form of one character (the closing paragraph of R106). -/
def utf8Encode (ch : CodePoint) : Bytes :=
  let n := ch.toNat
  if n < 0x80 then [BitVec.ofNat 8 n]
  else if n < 0x800 then [BitVec.ofNat 8 (0xC0 + n / 64), continuation n]
  else if n < 0x10000 then [BitVec.ofNat 8 (0xE0 + n / 4096), continuation (n / 64), continuation n]
  else [BitVec.ofNat 8 (0xF0 + n / 262144), continuation (n / 4096), continuation (n / 64), continuation n]

end Sys2Proof
end

