-- ==== Sys2Proof/Machine/ChunkUnit.lean ====
section
/-! DEFINITION. The CHUNK unit (spec/42_chunk.md): construction, the four accessors, the payload as text, serialization and
parsing. -/

namespace Sys2Proof.Machine

/-- The Chunk that `CHUNK_NEW(t, d)` builds, and the registers after it (R101): the four type bytes and then the payload
run through one accumulator (spec/41_crc32.md R92). -/
def buildChunk (t : Bytes4) (d : Bytes) (w : Work) : Chunk × Work :=
  let w := { w with lenr := BitVec.ofNat 32 d.length }
  let w := (w.initAcc.crcWalk t.toList).crcWalk d
  ({ length := w.lenr, type := t, data := d, crc := w.crcOut }, w)

/-- `CHUNK_NEW(t, d)` (R101). -/
def chunkOfPayload (t : Bytes4) (d : Bytes) (w : Work) : Done :=
  let cw := buildChunk t d w
  .returned (.chunk cw.1) cw.2

/-- CHUNK_NEW (R101); refused for a type that is not a Tag and for a payload over MAX_PAYLOAD (R134). -/
def execChunkNew (t : Bytes4) (d : Bytes) (s : State) : Result :=
  if isTag t then withBound (payloadFits s.params d) (chunkOfPayload t d) s else .refused .notATag

/-- CHUNK_LENGTH (R102). -/
def execChunkLength (c : Chunk) (s : State) : Result :=
  withChunk c (fun w => .returned (.u32 c.length) w) s

/-- CHUNK_TYPE (R103). -/
def execChunkType (c : Chunk) (s : State) : Result :=
  withChunk c (fun w => .returned (.tag c.type) w) s

/-- CHUNK_DATA (R104). -/
def execChunkData (c : Chunk) (s : State) : Result :=
  withChunk c (fun w => .returned (.bytes c.data) w) s

/-- CHUNK_CRC (R105): the stored field, not recomputed. -/
def execChunkCrc (c : Chunk) (s : State) : Result :=
  withChunk c (fun w => .returned (.u32 c.crc) w) s

/-- `CHUNK_DATA_AS_TEXT(c)` (R107). -/
def textOfPayload (d : Bytes) (w : Work) : Done :=
  match utf8Decode d with
  | some x => .returned (.text x) w
  | none => raise .notUtf8 w

/-- CHUNK_DATA_AS_TEXT (R107). -/
def execChunkDataAsText (c : Chunk) (s : State) : Result :=
  withChunk c (textOfPayload c.data) s

/-- A fresh output buffer of `n` bytes; what they hold before they are written is free (R108; log entry 5). -/
def freshBuffer (n : Nat) : Bytes := (List.range n).map Config.freeByte

/-- The four writes of `CHUNK_SERIALIZE` into a buffer (R108). -/
def writeFrame (c : Chunk) (n : Nat) (out : Bytes) : Option Bytes :=
  (memWrite out 0 4 (toBe32 c.length).toList).bind fun out =>
  (memWrite out 4 4 c.type.toList).bind fun out =>
  (memWrite out 8 n c.data).bind fun out =>
  memWrite out (8 + n) 4 (toBe32 c.crc).toList

/-- `CHUNK_SERIALIZE(c)` (R108): the stored length and checksum are written, not recomputed. -/
def frameOfChunk (c : Chunk) (w : Work) : Done :=
  let w := { w with lenr := c.length }
  let n := w.lenr.toNat
  match writeFrame c n (freshBuffer (12 + n)) with
  | some out => .returned (.bytes out) w
  | none => .aborted

/-- CHUNK_SERIALIZE (R108). -/
def execChunkSerialize (c : Chunk) (s : State) : Result :=
  withChunk c (frameOfChunk c) s

/-- Steps 6 to 8 of `CHUNK_PARSE` (R109): build the Chunk, compare its checksum with CRCR, return it or discard it. -/
def parseVerify (d : Bytes) (w : Work) : Done :=
  let cw := buildChunk w.tagr d w
  if cw.1.crc = cw.2.crcr then .returned (.chunk cw.1) cw.2 else raise .checksumMismatch cw.2

/-- Steps 3 to 5 of `CHUNK_PARSE` (R109): the type bytes, the payload and the stored checksum. -/
def parseFields (f : Bytes) (w : Work) : Done :=
  match memRead4 f 4 with
  | none => .aborted
  | some tb =>
    let w := { w with tagr := tb }
    if isTag w.tagr then
      match memRead f 8 (f.length - 12), memRead4 f (f.length - 4) with
      | some d, some stored => parseVerify d { w with crcr := be32 stored }
      | _, _ => .aborted
    else raise .invalidTypeBytes w

/-- `CHUNK_PARSE(f)` (R109): steps 1 and 2, then the rest. The order of the tests is the priority of the errors (R126). -/
def parseFrame (p : LenPolicy) (f : Bytes) (w : Work) : Done :=
  if f.length < 12 then raise .truncated w
  else
    match memRead4 f 0 with
    | none => .aborted
    | some declared =>
      let w := { w with lenr := be32 declared }
      if p = .strict ∧ w.lenr.toNat ≠ f.length - 12 then raise .invalidLength w else parseFields f w

/-- CHUNK_PARSE (R109); refused for a buffer over MAX_PAYLOAD + 12 (R134). -/
def execChunkParse (f : Bytes) (s : State) : Result :=
  withBound (frameFits s.params f) (parseFrame s.params.lenPolicy f) s

end Sys2Proof.Machine
end

