-- ==== Sys2Proof/Machine/CrcUnit.lean ====
section
/-! DEFINITION. The CRC unit: the operation CRC32 (spec/41_crc32.md R94). -/

namespace Sys2Proof.Machine

/-- `CRC32(m)` (R94): the message through the accumulator (R91). -/
def crcMessage (m : Bytes) (w : Work) : Done :=
  let w := w.initAcc.crcWalk m
  .returned (.u32 w.crcOut) w

/-- CRC32 (R94). -/
def execCrc32 (m : Bytes) (s : State) : Result :=
  withBound (messageFits s.params m) (crcMessage m) s

end Sys2Proof.Machine
end

