-- ==== Sys2Proof/Machine/TagUnit.lean ====
section
/-! DEFINITION. The TAG unit (spec/40_tag.md): the two constructors, the accessor, the five queries and the display. -/

namespace Sys2Proof.Machine

/-- `TAG_FROM_BYTES(b)` (R71): TAGR takes the bytes, every one is tested, and they are returned unmodified. -/
def tagOfBytes (b : Bytes4) (w : Work) : Done :=
  let w := { w with tagr := b }
  if isTag w.tagr then .returned (.tag w.tagr) w else raise .invalidTypeBytes w

/-- TAG_FROM_BYTES (R71). -/
def execTagFromBytes (b : Bytes4) (s : State) : Result :=
  deliver (tagOfBytes b s.work.start) s

/-- `TAG_FROM_TEXT(s)` (R72): the length test comes before the character test (R127), and each character of an accepted
text becomes the byte of its code. -/
def tagOfText (x : Text) (w : Work) : Done :=
  match x with
  | [c0, c1, c2, c3] =>
    if isAsciiLetter c0 && isAsciiLetter c1 && isAsciiLetter c2 && isAsciiLetter c3 then
      let w := { w with tagr := { b0 := lowByte c0, b1 := lowByte c1, b2 := lowByte c2, b3 := lowByte c3 } }
      .returned (.tag w.tagr) w
    else raise .invalidCharacter w
  | _ => raise .invalidLength w

/-- TAG_FROM_TEXT (R72); a text with a value that is not a character is refused (R134). -/
def execTagFromText (x : Text) (s : State) : Result :=
  if isText x then deliver (tagOfText x s.work.start) s else .refused .notAText

/-- TAG_BYTES (R73). -/
def execTagBytes (t : Bytes4) (s : State) : Result :=
  withTag t (fun w => .returned (.bytes4 w.tagr) w) s

/-- TAG_IS_CRITICAL (R74). -/
def execTagIsCritical (t : Bytes4) (s : State) : Result :=
  withTag t (fun w => .returned (.bit (isCritical w.tagr)) w) s

/-- TAG_IS_PUBLIC (R75). -/
def execTagIsPublic (t : Bytes4) (s : State) : Result :=
  withTag t (fun w => .returned (.bit (isPublic w.tagr)) w) s

/-- TAG_IS_RESERVED_BIT_VALID (R76). -/
def execTagIsReservedBitValid (t : Bytes4) (s : State) : Result :=
  withTag t (fun w => .returned (.bit (isReservedBitValid w.tagr)) w) s

/-- TAG_IS_SAFE_TO_COPY (R77). -/
def execTagIsSafeToCopy (t : Bytes4) (s : State) : Result :=
  withTag t (fun w => .returned (.bit (isSafeToCopy w.tagr)) w) s

/-- TAG_IS_VALID (R78). -/
def execTagIsValid (t : Bytes4) (s : State) : Result :=
  withTag t (fun w => .returned (.bit (isValid w.tagr)) w) s

/-- TAG_DISPLAY (R79): one character per byte, equal to the byte. -/
def execTagDisplay (t : Bytes4) (s : State) : Result :=
  withTag t (fun w => .returned (.text (w.tagr.toList.map zext21)) w) s

end Sys2Proof.Machine
end

