-- ==== Sys2Proof/Machine/Dispatch.lean ====
section
/-! DEFINITION. One arm per operation of spec/30_encoding.md R58. -/

namespace Sys2Proof.Machine

def exec (i : Instr) (s : State) : Host.Outcome State Fault Refusal :=
  match i with
  | .crc32 m => Sys2Proof.Machine.execCrc32 m s
  | .tagFromBytes b => Sys2Proof.Machine.execTagFromBytes b s
  | .tagFromText x => Sys2Proof.Machine.execTagFromText x s
  | .tagBytes t => Sys2Proof.Machine.execTagBytes t s
  | .tagIsCritical t => Sys2Proof.Machine.execTagIsCritical t s
  | .tagIsPublic t => Sys2Proof.Machine.execTagIsPublic t s
  | .tagIsReservedBitValid t => Sys2Proof.Machine.execTagIsReservedBitValid t s
  | .tagIsSafeToCopy t => Sys2Proof.Machine.execTagIsSafeToCopy t s
  | .tagIsValid t => Sys2Proof.Machine.execTagIsValid t s
  | .tagDisplay t => Sys2Proof.Machine.execTagDisplay t s
  | .chunkNew t d => Sys2Proof.Machine.execChunkNew t d s
  | .chunkLength c => Sys2Proof.Machine.execChunkLength c s
  | .chunkType c => Sys2Proof.Machine.execChunkType c s
  | .chunkData c => Sys2Proof.Machine.execChunkData c s
  | .chunkCrc c => Sys2Proof.Machine.execChunkCrc c s
  | .chunkDataAsText c => Sys2Proof.Machine.execChunkDataAsText c s
  | .chunkSerialize c => Sys2Proof.Machine.execChunkSerialize c s
  | .chunkParse f => Sys2Proof.Machine.execChunkParse f s

end Sys2Proof.Machine
end

