-- ==== Sys2Proof/Machine/HostPort.lean ====
section
/-! DEFINITION. The port of the CORE as the host uses it (spec/70_reset_and_hazards.md R148): issuing a request, asserting
reset, and how a request that does not decode is refused. -/

namespace Sys2Proof.Machine

/-- The refusal of a request that does not decode (spec/60_exceptions.md R134). -/
def refusalOf : Reject → Refusal
  | .reservedOpcode op => .reservedOpcode op
  | .operandShape op => .operandShape op

/-- The host issues a request: accepted by an idle CORE, refused while another request is in flight (R145). The response
of the request before is not kept (spec/10_state.md R17 (c)). (log entries 10, 11 and 13) -/
def State.issue (r : Request) (s : State) : Result :=
  match s.inFlight with
  | none => .next { s with inFlight := some r, response := none }
  | some _ => .refused .requestInFlight

/-- The host asserts reset (R140, R141): the CORE is idle, no response is pending, a request in flight is abandoned
without one, and the parameters are unchanged. (log entry 12) -/
def State.assertReset (s : State) : State :=
  { State.reset with params := s.params, freeCount := s.freeCount }

end Sys2Proof.Machine
end

