-- ==== Sys2Proof/Machine/Step.lean ====
section
/-! DEFINITION. One step of the machine: one transaction (spec/00_scope.md R9; log entry 1). A request in flight is decoded and
answered; without one the CORE is idle. The CORE fetches no instructions and has no program counter (spec/10_state.md
R15): its "next instruction" is the request on its port. -/

namespace Sys2Proof.Machine

/-- One transaction. An idle CORE stays as it is (DEDUCED: R133 (e), "idle" is simply the absence of a request; log
entry 7). -/
def step (s : State) : Host.Outcome State Fault Refusal :=
  match s.inFlight with
  | none => .next s
  | some r =>
    match decode r with
    | .ok i => exec i s
    | .error e => .refused (refusalOf e)

/-- The state with a word of the opcode table placed as the request in flight (log entry 8). -/
def State.withFetchWord (s : State) (_nbits w : Nat) : State :=
  { s with inFlight := some (requestOfWord w) }

end Sys2Proof.Machine
end

