-- ==== Sys2Proof/Machine/Program.lean ====
section
/-! DEFINITION. Programs (spec/30_encoding.md R63): a finite list of requests the host issues one after the other, each
after the previous response. -/

namespace Sys2Proof.Machine

/-- One transaction as the host sees it: issue the request, then one step. -/
def transact (r : Request) (s : State) : Result :=
  match s.issue r with
  | .next s => step s
  | .fault e => .fault e
  | .refused e => .refused e

/-- Runs a program and collects the responses in order; it stops at the first fault or refusal. -/
def runProgram : List Request → State → Host.Outcome (State × List Response) Fault Refusal
  | [], s => .next (s, [])
  | r :: rest, s =>
    match transact r s with
    | .next s' =>
      match runProgram rest s' with
      | .next (s'', rs) => .next (s'', s'.response.toList ++ rs)
      | .fault e => .fault e
      | .refused e => .refused e
    | .fault e => .fault e
    | .refused e => .refused e

end Sys2Proof.Machine
end

