-- ==== Sys2Proof/WellFormed.lean ====
section
/-! DEFINITION. Which requests the spec gives a meaning (spec/00_scope.md R7, spec/60_exceptions.md R134): the operands are
values of their types and the buffers are within the bounds of the instance. -/

namespace Sys2Proof

/-- The instruction is admitted on an instance with the parameters `p`. -/
def Instr.wf (p : Params) : Instr → Bool
  | .crc32 m => messageFits p m
  | .tagFromBytes _ => true
  | .tagFromText x => isText x
  | .tagBytes t => isTag t
  | .tagIsCritical t => isTag t
  | .tagIsPublic t => isTag t
  | .tagIsReservedBitValid t => isTag t
  | .tagIsSafeToCopy t => isTag t
  | .tagIsValid t => isTag t
  | .tagDisplay t => isTag t
  | .chunkNew t d => isTag t && payloadFits p d
  | .chunkLength c => isChunk p c
  | .chunkType c => isChunk p c
  | .chunkData c => isChunk p c
  | .chunkCrc c => isChunk p c
  | .chunkDataAsText c => isChunk p c
  | .chunkSerialize c => isChunk p c
  | .chunkParse f => frameFits p f

end Sys2Proof
end

