-- ==== Sys2Proof/Safety.lean ====
section
/-! DEFINITION. The terms the claims are stated in: what the host sees of a step, the two shapes of a response, the
invariant every step keeps, well-formed frames (spec/30_encoding.md R50), and the changes of a buffer that the rules on
tampering speak of. -/

namespace Sys2Proof.Machine

/-- `ok(v)` (spec/00_scope.md R6 item 8): status 0 and a value. -/
def okResponse (v : PortValue) : Response := { st := 0#3, value := some v }

/-- `err(E)`: the code and no value (spec/60_exceptions.md R128). -/
def errResponse (e : Err) : Response := { st := e.code, value := none }

/-- The instruction executed at `s` completes: there is a next state, the response on its port is `r`, the CORE is idle
again, and the parameters of the instance are as before. The working registers are unspecified in the next state, so
nothing is said of them. -/
def Answers (s : State) (i : Instr) (r : Response) : Prop :=
  ∃ t, exec i s = .next t ∧ t.response = some r ∧ t.inFlight = none ∧ t.params = s.params

/-- What the host sees of a transaction: the response, or that there is none. -/
inductive Visible where
  | answered (r : Option Response)
  | fault (f : Fault)
  | refused (r : Refusal)
  deriving DecidableEq, Repr

/-- The part of an outcome the host sees (spec/10_state.md R19: nothing else is observable). -/
def visible : Result → Visible
  | .next t => .answered t.response
  | .fault f => .fault f
  | .refused r => .refused r

/-- A port value is a value of its type, within the bounds of the instance (spec/10_state.md R11, R12). -/
def portValueWf (p : Params) : PortValue → Bool
  | .bit _ => true
  | .u32 _ => true
  | .bytes4 _ => true
  | .tag t => isTag t
  | .bytes b => frameFits p b
  | .text x => isText x
  | .chunk c => isChunk p c

/-- A response has format RSP (spec/30_encoding.md R55, R56, R60): status 0 with a well-formed value, or one of the codes
1 to 6 with none; 7 never. -/
def responseWf (p : Params) (r : Response) : Bool :=
  match r.value with
  | some v => r.st = 0#3 && portValueWf p v
  | none => 1 ≤ r.st.toNat && r.st.toNat ≤ 6

/-- The invariant of the machine: whatever stands on the result port is a response of this hardware. -/
def Inv (s : State) : Prop := ∀ r, s.response = some r → responseWf s.params r = true

/-- A request is admitted on an instance: it decodes to an instruction the spec gives a meaning (spec/00_scope.md R7). -/
def Admitted (p : Params) (r : Request) : Prop := ∃ i, decode r = .ok i ∧ i.wf p = true

/-- `F[i..i+4)` as four bytes, for an `F` long enough. -/
def fieldAt (f : Bytes) (i : Nat) : Bytes4 :=
  { b0 := f.getD i 0#8, b1 := f.getD (i + 1) 0#8, b2 := f.getD (i + 2) 0#8, b3 := f.getD (i + 3) 0#8 }

/-- `F[i..j)` (spec/00_scope.md R6 item 3). -/
def slice (f : Bytes) (i j : Nat) : Bytes := (f.drop i).take (j - i)

/-- The conditions of a well-formed frame but for the one on `LEN` (spec/30_encoding.md R50; spec/42_chunk.md R112). -/
def frameButForLength (f : Bytes) : Prop :=
  12 ≤ f.length ∧ isTag (fieldAt f 4) = true ∧
    be32 (fieldAt f (f.length - 4)) = crc32 (slice f 4 (f.length - 4))

/-- A well-formed frame (R50). -/
def wellFormedFrame (f : Bytes) : Prop :=
  frameButForLength f ∧ (be32 (fieldAt f 0)).toNat = f.length - 12

/-- The frame of a Chunk, `to_be32(length) ++ type ++ data ++ to_be32(crc)` (R50; spec/42_chunk.md R108). -/
def frameBytes (c : Chunk) : Bytes :=
  (toBe32 c.length).toList ++ c.type.toList ++ c.data ++ (toBe32 c.crc).toList

/-- The unique Chunk with a type and a payload (spec/30_encoding.md R63: `chunk(tag, data)`). -/
def chunkOf (t : Bytes4) (d : Bytes) : Chunk :=
  { length := BitVec.ofNat 32 d.length, type := t, data := d, crc := crc32 (t.toList ++ d) }

/-- A buffer with bit `k` of byte `o` inverted (spec/42_chunk.md R111). -/
def flipBit (f : Bytes) (o k : Nat) : Bytes := f.set o (f.getD o 0#8 ^^^ (1#8 <<< k))

/-- Bit `j` of a message in the order the CRC takes bits: byte by byte, each least significant bit first
(spec/41_crc32.md R95 (c)). -/
def messageBit (m : Bytes) (j : Nat) : Bool := (m.getD (j / 8) 0#8).getLsbD (j % 8)

/-- The bytewise XOR of two messages (R95 (b)). -/
def xorBytes (a b : Bytes) : Bytes := List.zipWith (· ^^^ ·) a b

/-- A Tag with the case of letter `k` changed: XOR of `t[k]` with 0x20 (spec/40_tag.md R80 (b)). -/
def changeCase (t : Bytes4) (k : Fin 4) : Bytes4 :=
  match k with
  | 0 => { t with b0 := t.b0 ^^^ 0x20#8 }
  | 1 => { t with b1 := t.b1 ^^^ 0x20#8 }
  | 2 => { t with b2 := t.b2 ^^^ 0x20#8 }
  | 3 => { t with b3 := t.b3 ^^^ 0x20#8 }

/-- The same state with other contents of the working registers and another count of free values. -/
def State.withWork (s : State) (w : Work) (k : Nat) : State := { s with work := w, freeCount := k }

end Sys2Proof.Machine
end

