-- ==== Sys2Proof/Certificates/Slice0/Obligations.lean ====
section
/-! DEFINITION. The statements for the provers, in the order: reset and step, requests and their encoding, the predicates,
the TAG unit, the CRC unit, the CHUNK unit, errors, and the machine as a whole. Every statement holds for every instance:
MAX_PAYLOAD and LEN_POLICY are fields of the state it quantifies over. -/

open Sys2Proof Sys2Proof.Machine

/- Reset, the port, and one step -/

/-- spec/70_reset_and_hazards.md R140, spec/10_state.md R21: after reset no request is in flight and no response is
pending, a request is accepted, and the policy is STRICT. The second half is the host's reset input at any time: the same
idle state with the parameters unchanged, whatever was in flight (log entry 12). -/
def Obligations.ResetMakesTheCoreIdle : Prop :=
  State.reset.inFlight = none ∧ State.reset.response = none ∧ State.reset.params.lenPolicy = .strict ∧
  ∀ s : State,
    s.assertReset.inFlight = none ∧ s.assertReset.response = none ∧ s.assertReset.params = s.params ∧
    ∀ r, ∃ t, s.assertReset.issue r = .next t ∧ t.inFlight = some r ∧ t.params = s.params

/-- spec/70_reset_and_hazards.md R141: a request abandoned by a reset has no response, and issued again it gets the one it
would have got. That a pending response is gone is the model's reading, log entry 12. -/
def Obligations.ResetAbandonsTheRequestInFlight : Prop :=
  ∀ (s : State) (r : Request), s.inFlight = some r →
    s.assertReset.response = none ∧ visible (transact r s.assertReset) = visible (step s)

/-- spec/70_reset_and_hazards.md R145: an idle CORE accepts a request, and while one is in flight another is refused. The
refusal's name and the clearing of the port are the model's, log entries 11 and 13. -/
def Obligations.OneRequestInFlight : Prop :=
  ∀ (s : State) (r : Request),
    (s.inFlight = none →
      ∃ t, s.issue r = .next t ∧ t.inFlight = some r ∧ t.response = none ∧ t.params = s.params) ∧
    (∀ q, s.inFlight = some q → s.issue r = .refused .requestInFlight)

/-- A step runs the decoded request: the bridge from the statements about `exec` to a run. The last clause (an idle CORE
stays as it is) is the model's choice, log entry 7, and so is the refusal of ill-shaped operands, log entry 14. -/
def Obligations.StepRunsTheDecodedRequest : Prop :=
  ∀ s : State,
    (∀ r i, s.inFlight = some r → decode r = .ok i → step s = exec i s) ∧
    (∀ r op, s.inFlight = some r → decode r = .error (.reservedOpcode op) → step s = .refused (.reservedOpcode op)) ∧
    (∀ r op, s.inFlight = some r → decode r = .error (.operandShape op) → step s = .refused (.operandShape op)) ∧
    (s.inFlight = none → step s = .next s)

/- Requests and their encoding -/

/-- spec/30_encoding.md R58: the opcode and the operands of every operation. -/
def Obligations.OperationMapOpcodes : Prop :=
  (∀ m, encode (.crc32 m) = { op := 0x01#8, args := [.bytes m] }) ∧
  (∀ b, encode (.tagFromBytes b) = { op := 0x10#8, args := [.bytes4 b] }) ∧
  (∀ x, encode (.tagFromText x) = { op := 0x11#8, args := [.text x] }) ∧
  (∀ t, encode (.tagBytes t) = { op := 0x12#8, args := [.tag t] }) ∧
  (∀ t, encode (.tagIsCritical t) = { op := 0x13#8, args := [.tag t] }) ∧
  (∀ t, encode (.tagIsPublic t) = { op := 0x14#8, args := [.tag t] }) ∧
  (∀ t, encode (.tagIsReservedBitValid t) = { op := 0x15#8, args := [.tag t] }) ∧
  (∀ t, encode (.tagIsSafeToCopy t) = { op := 0x16#8, args := [.tag t] }) ∧
  (∀ t, encode (.tagIsValid t) = { op := 0x17#8, args := [.tag t] }) ∧
  (∀ t, encode (.tagDisplay t) = { op := 0x18#8, args := [.tag t] }) ∧
  (∀ t d, encode (.chunkNew t d) = { op := 0x20#8, args := [.tag t, .bytes d] }) ∧
  (∀ c, encode (.chunkLength c) = { op := 0x21#8, args := [.chunk c] }) ∧
  (∀ c, encode (.chunkType c) = { op := 0x22#8, args := [.chunk c] }) ∧
  (∀ c, encode (.chunkData c) = { op := 0x23#8, args := [.chunk c] }) ∧
  (∀ c, encode (.chunkCrc c) = { op := 0x24#8, args := [.chunk c] }) ∧
  (∀ c, encode (.chunkDataAsText c) = { op := 0x25#8, args := [.chunk c] }) ∧
  (∀ c, encode (.chunkSerialize c) = { op := 0x26#8, args := [.chunk c] }) ∧
  (∀ f, encode (.chunkParse f) = { op := 0x27#8, args := [.bytes f] })

/-- Words written out from spec/30_encoding.md R53 and R58, field by field, decode to the operation they stand for. -/
def Obligations.SampleRequestsDecode : Prop :=
  decode { op := 0b00_00_0001#8, args := [.bytes [0x61#8]] } = .ok (.crc32 [0x61#8]) ∧
  decode { op := 0b00_01_0000#8, args := [.bytes4 ⟨0x52#8, 0x75#8, 0x53#8, 0x74#8⟩] } =
    .ok (.tagFromBytes ⟨0x52#8, 0x75#8, 0x53#8, 0x74#8⟩) ∧
  decode { op := 0b00_01_0110#8, args := [.tag ⟨0x52#8, 0x75#8, 0x53#8, 0x74#8⟩] } =
    .ok (.tagIsSafeToCopy ⟨0x52#8, 0x75#8, 0x53#8, 0x74#8⟩) ∧
  decode { op := 0b00_10_0000#8, args := [.tag ⟨0x52#8, 0x75#8, 0x53#8, 0x74#8⟩, .bytes [0x48#8, 0x69#8]] } =
    .ok (.chunkNew ⟨0x52#8, 0x75#8, 0x53#8, 0x74#8⟩ [0x48#8, 0x69#8]) ∧
  decode { op := 0b00_10_0111#8, args := [.bytes []] } = .ok (.chunkParse [])

/-- Decode and encode agree: every instruction comes back with every operand, and every request that decodes is the one
request that carries its instruction. -/
def Obligations.DecodeAndEncodeAgree : Prop :=
  (∀ i, decode (encode i) = .ok i) ∧ (∀ r i, decode r = .ok i → encode i = r)

/-- spec/30_encoding.md R59: the reserved opcodes are exactly the listed ranges, 238 values, and a request with one is
refused whatever its operands are. The refusal's name is the model's, log entry 17. -/
def Obligations.ReservedOpcodesAreRefused : Prop :=
  (∀ op : BitVec 8, opcodeOfByte op = none ↔
    op.toNat = 0x00 ∨ (0x02 ≤ op.toNat ∧ op.toNat ≤ 0x0F) ∨ (0x19 ≤ op.toNat ∧ op.toNat ≤ 0x1F) ∨
    (0x28 ≤ op.toNat ∧ op.toNat ≤ 0x2F) ∨ (0x30 ≤ op.toNat ∧ op.toNat ≤ 0x3F) ∨ 0x40 ≤ op.toNat) ∧
  (Finset.univ.filter fun op : BitVec 8 => opcodeOfByte op = none).card = 238 ∧
  ∀ (s : State) (r : Request), s.inFlight = some r → opcodeOfByte r.op = none →
    step s = .refused (.reservedOpcode r.op)

/- Bytes, letters and case bits -/

/-- spec/00_scope.md R6 item 4: `be32` and `to_be32` are inverses, and byte 0 is the most significant byte
(spec/20_memory.md R32). -/
def Obligations.BigEndianWordsRoundTrip : Prop :=
  (∀ v, be32 (toBe32 v) = v) ∧ (∀ b, toBe32 (be32 b) = b) ∧
  ∀ b : Bytes4, (be32 b).toNat = b.b0.toNat * 2 ^ 24 + b.b1.toNat * 2 ^ 16 + b.b2.toNat * 2 ^ 8 + b.b3.toNat

/-- spec/40_tag.md R70: the letter test by ranges and by bits, on bytes and on characters, the case bit of a letter, and
the corner values. -/
def Obligations.LettersAreTheTwoAsciiRanges : Prop :=
  (∀ b : Byte, isLetter b = true ↔
    (0x41 ≤ b.toNat ∧ b.toNat ≤ 0x5A) ∨ (0x61 ≤ b.toNat ∧ b.toNat ≤ 0x7A)) ∧
  (∀ b : Byte, isLetter b = true ↔
    b.extractLsb' 6 2 = 0b01#2 ∧ 1 ≤ (b.extractLsb' 0 5).toNat ∧ (b.extractLsb' 0 5).toNat ≤ 26) ∧
  (∀ ch : CodePoint, isAsciiLetter ch = true ↔ ch.toNat ≤ 0x7F ∧ isLetter (lowByte ch) = true) ∧
  (∀ b : Byte, isLetter b = true → (caseBit b = false ↔ b.toNat ≤ 0x5A)) ∧
  (∀ b : Byte, caseBit b = true ↔ b &&& 0x20#8 = 0x20#8) ∧
  (∀ b ∈ [0x40#8, 0x5B#8, 0x60#8, 0x7B#8, 0x00#8, 0x20#8, 0x7F#8], isLetter b = false) ∧
  (∀ b : Byte, 0x30 ≤ b.toNat ∧ b.toNat ≤ 0x39 → isLetter b = false) ∧
  (∀ b : Byte, 0x80 ≤ b.toNat → isLetter b = false) ∧
  (∀ b ∈ [0x41#8, 0x5A#8, 0x61#8, 0x7A#8], isLetter b = true)

/-- spec/10_state.md R11: there are 52 letters, hence `52^4 = 7,311,616` Tags. -/
def Obligations.ThereAre52To4Tags : Prop :=
  (Finset.univ.filter fun b : Byte => isLetter b = true).card = 52 ∧
  (Finset.univ.filter fun q : Byte × Byte × Byte × Byte => isTag ⟨q.1, q.2.1, q.2.2.1, q.2.2.2⟩ = true).card = 7311616

/-- spec/30_encoding.md R52: the case bits of `t[0]` to `t[3]` are bits 29, 21, 13 and 5 of `be32(t)`. -/
def Obligations.CaseBitsInTheTagWord : Prop :=
  ∀ t : Bytes4,
    (be32 t).getLsbD 29 = !isCritical t ∧ (be32 t).getLsbD 21 = !isPublic t ∧
    (be32 t).getLsbD 13 = !isReservedBitValid t ∧ (be32 t).getLsbD 5 = isSafeToCopy t

/-- spec/40_tag.md R80 (a): each of the 16 combinations of the four classifications has a Tag. -/
def Obligations.ClassificationsAreIndependent : Prop :=
  ∀ a b c d : Bool, ∃ t, isTag t = true ∧
    isCritical t = a ∧ isPublic t = b ∧ isReservedBitValid t = c ∧ isSafeToCopy t = d

/-- spec/40_tag.md R80 (b): changing the case of one letter yields a Tag again and flips exactly the query of that letter
(and `TAG_IS_VALID` with the third). -/
def Obligations.ChangingCaseFlipsOneQuery : Prop :=
  ∀ (t : Bytes4) (k : Fin 4), isTag t = true →
    isTag (changeCase t k) = true ∧
    isCritical (changeCase t k) = (isCritical t ^^ decide (k = 0)) ∧
    isPublic (changeCase t k) = (isPublic t ^^ decide (k = 1)) ∧
    isReservedBitValid (changeCase t k) = (isReservedBitValid t ^^ decide (k = 2)) ∧
    isSafeToCopy (changeCase t k) = (isSafeToCopy t ^^ decide (k = 3)) ∧
    isValid (changeCase t k) = (isValid t ^^ decide (k = 2))

/- The TAG unit -/

/-- spec/40_tag.md R71: four letters give the Tag of those exact bytes, anything else `InvalidTypeBytes`. -/
def Obligations.TagFromBytesAcceptsExactlyLetters : Prop :=
  ∀ (s : State) (b : Bytes4),
    (isLetter b.b0 = true ∧ isLetter b.b1 = true ∧ isLetter b.b2 = true ∧ isLetter b.b3 = true →
      Answers s (.tagFromBytes b) (okResponse (.tag b))) ∧
    (isLetter b.b0 = false ∨ isLetter b.b1 = false ∨ isLetter b.b2 = false ∨ isLetter b.b3 = false →
      Answers s (.tagFromBytes b) (errResponse .invalidTypeBytes))

/-- spec/40_tag.md R72, spec/60_exceptions.md R127: the length is tested before the characters; four ASCII letters give
what the byte constructor gives of their codes. -/
def Obligations.TagFromTextTestsLengthThenLetters : Prop :=
  ∀ (s : State) (x : Text), isText x = true →
    (x.length ≠ 4 → Answers s (.tagFromText x) (errResponse .invalidLength)) ∧
    (x.length = 4 → (∃ ch ∈ x, isAsciiLetter ch = false) →
      Answers s (.tagFromText x) (errResponse .invalidCharacter)) ∧
    (∀ c0 c1 c2 c3, x = [c0, c1, c2, c3] → (∀ ch ∈ x, isAsciiLetter ch = true) →
      Answers s (.tagFromText x) (okResponse (.tag ⟨lowByte c0, lowByte c1, lowByte c2, lowByte c3⟩)) ∧
      Answers s (.tagFromBytes ⟨lowByte c0, lowByte c1, lowByte c2, lowByte c3⟩)
        (okResponse (.tag ⟨lowByte c0, lowByte c1, lowByte c2, lowByte c3⟩)))

/-- spec/40_tag.md R73: the accessor returns the four bytes, the bytes the Tag was made from (the second clause is R71 on
those bytes). -/
def Obligations.TagBytesReturnsTheBytes : Prop :=
  ∀ (s : State) (t : Bytes4), isTag t = true →
    Answers s (.tagBytes t) (okResponse (.bytes4 t)) ∧ Answers s (.tagFromBytes t) (okResponse (.tag t))

/-- spec/40_tag.md R74 to R77: the four classification queries, each one case bit; only safe-to-copy is true when its bit
is set. -/
def Obligations.TagQueriesReadOneCaseBit : Prop :=
  ∀ (s : State) (t : Bytes4), isTag t = true →
    Answers s (.tagIsCritical t) (okResponse (.bit (t.b0.getLsbD 5 = false))) ∧
    Answers s (.tagIsPublic t) (okResponse (.bit (t.b1.getLsbD 5 = false))) ∧
    Answers s (.tagIsReservedBitValid t) (okResponse (.bit (t.b2.getLsbD 5 = false))) ∧
    Answers s (.tagIsSafeToCopy t) (okResponse (.bit (t.b3.getLsbD 5 = true)))

/-- spec/40_tag.md R78: `TAG_IS_VALID` answers what `TAG_IS_RESERVED_BIT_VALID` answers, whatever the other three bits
are. -/
def Obligations.TagIsValidIsReservedBitValid : Prop :=
  ∀ (s : State) (t : Bytes4), isTag t = true →
    Answers s (.tagIsValid t) (okResponse (.bit (t.b2.getLsbD 5 = false))) ∧
    ∀ r, Answers s (.tagIsValid t) r ↔ Answers s (.tagIsReservedBitValid t) r

/-- spec/40_tag.md R79: the display is four characters equal to the bytes, and the text constructor gives the Tag back (the
last clause is R72 on that text). -/
def Obligations.TagDisplayShowsTheLetters : Prop :=
  ∀ (s : State) (t : Bytes4), isTag t = true →
    Answers s (.tagDisplay t) (okResponse (.text [zext21 t.b0, zext21 t.b1, zext21 t.b2, zext21 t.b3])) ∧
    (∀ b : Byte, (zext21 b).toNat = b.toNat) ∧
    Answers s (.tagFromText [zext21 t.b0, zext21 t.b1, zext21 t.b2, zext21 t.b3]) (okResponse (.tag t))

/- The CRC unit -/

/-- spec/41_crc32.md R90: the polynomial in reflected form is the normal form with its bits reversed, the two constants
are all ones, and the check value. -/
def Obligations.CrcParameters : Prop :=
  (∀ k : Fin 32, crcPoly.getLsbD (31 - k.val) = (0x04C11DB7#32).getLsbD k.val) ∧
  crcInit = 0xFFFFFFFF#32 ∧ crcXorOut = 0xFFFFFFFF#32 ∧
  crc32 [0x31#8, 0x32#8, 0x33#8, 0x34#8, 0x35#8, 0x36#8, 0x37#8, 0x38#8, 0x39#8] = 0xCBF43926#32

/-- spec/41_crc32.md R94: `CRC32` answers `crc32(m)` for every message within the bound; the CRC of a Chunk's type and
data is the Chunk's checksum. -/
def Obligations.Crc32AnswersTheChecksum : Prop :=
  (∀ (s : State) (m : Bytes), m.length ≤ s.params.maxPayload.toNat + 4 →
    Answers s (.crc32 m) (okResponse (.u32 (crc32 m)))) ∧
  (∀ (s : State) (c : Chunk), isChunk s.params c = true →
    Answers s (.crc32 (c.type.toList ++ c.data)) (okResponse (.u32 c.crc)) ∧
    Answers s (.chunkCrc c) (okResponse (.u32 c.crc)))

/-- spec/41_crc32.md R92: the accumulator after `A ++ B` is the accumulator after `A` carried through `B`, one `crc_step`
a byte. -/
def Obligations.CrcStreamsByteByByte : Prop :=
  (∀ acc b, crcStep acc b = shift8 (acc ^^^ b.zeroExtend 32)) ∧
  (∀ m, crc32 m = m.foldl crcStep 0xFFFFFFFF#32 ^^^ 0xFFFFFFFF#32) ∧
  ∀ (w : Work) (a b : Bytes),
    ((w.initAcc.crcWalk a).crcWalk b).crcOut = crc32 (a ++ b) ∧
    ((w.crcWalk a).crcWalk b).acc = crcFold (crcFold w.acc a) b

/-- spec/41_crc32.md R93: the table form computes the same step, and the printed table is `shift8` of its index. -/
def Obligations.CrcTableFormIsTheBitSerialForm : Prop :=
  crcTable.length = 256 ∧
  (∀ k < 256, crcTable.getD k 0#32 = shift8 (BitVec.ofNat 32 k)) ∧
  ∀ acc b, crcStepTable acc b = crcStep acc b

/-- spec/41_crc32.md R95 (b): the difference of two checksums of equal length depends on the difference of the messages
alone. -/
def Obligations.CrcDifferenceIsLinear : Prop :=
  ∀ a b : Bytes, a.length = b.length → crc32 a ^^^ crc32 b = crcRaw (xorBytes a b)

/-- spec/42_chunk.md R111 and PME §8: changing one byte of a message changes its checksum. -/
def Obligations.CrcDetectsEverySingleByteChange : Prop :=
  ∀ (a b : Bytes) (x y : Byte), x ≠ y → crc32 (a ++ x :: b) ≠ crc32 (a ++ y :: b)

/-- spec/41_crc32.md R95 (d): two messages of the same length that differ, and differ only inside a window of at most 32
consecutive bits, have different checksums. -/
def Obligations.CrcDetectsEveryBurstOf32Bits : Prop :=
  ∀ a b : Bytes, a.length = b.length → a ≠ b →
    (∃ k, ∀ j, messageBit a j ≠ messageBit b j → k ≤ j ∧ j < k + 32) → crc32 a ≠ crc32 b

/- The CHUNK unit -/

/-- spec/42_chunk.md R101: construction always succeeds on a Tag and a payload within the bound, with the computed length
and checksum; the result is a Chunk, whose length is the byte count without wrap (R100 (b)). Any other request is
refused. -/
def Obligations.ChunkNewComputesLengthAndChecksum : Prop :=
  ∀ (s : State) (t : Bytes4) (d : Bytes),
    (isTag t = true → d.length ≤ s.params.maxPayload.toNat →
      Answers s (.chunkNew t d)
        (okResponse (.chunk { length := BitVec.ofNat 32 d.length, type := t, data := d,
                              crc := crc32 (t.toList ++ d) })) ∧
      isChunk s.params (chunkOf t d) = true ∧ (chunkOf t d).length.toNat = d.length) ∧
    (isTag t = false ∨ s.params.maxPayload.toNat < d.length → ∃ why, exec (.chunkNew t d) s = .refused why)

/-- spec/10_state.md R12: a Chunk is determined by its type and its data. -/
def Obligations.ChunkIsDeterminedByTypeAndData : Prop :=
  ∀ (p : Params) (c : Chunk), isChunk p c = true ↔
    isTag c.type = true ∧ c.data.length ≤ p.maxPayload.toNat ∧ c = chunkOf c.type c.data

/-- spec/42_chunk.md R102 to R105: the four accessors return the stored fields, which by the invariants are the byte count
and the checksum. -/
def Obligations.ChunkAccessorsReadTheFields : Prop :=
  ∀ (s : State) (c : Chunk), isChunk s.params c = true →
    Answers s (.chunkLength c) (okResponse (.u32 c.length)) ∧ c.length.toNat = c.data.length ∧
    Answers s (.chunkType c) (okResponse (.tag c.type)) ∧ isTag c.type = true ∧
    Answers s (.chunkData c) (okResponse (.bytes c.data)) ∧
    Answers s (.chunkCrc c) (okResponse (.u32 c.crc)) ∧ c.crc = crc32 (c.type.toList ++ c.data)

/-- spec/42_chunk.md R107: the payload as text, or `NotUtf8`; the type plays no part. -/
def Obligations.ChunkDataAsTextDecodesThePayload : Prop :=
  ∀ (s : State) (c : Chunk), isChunk s.params c = true →
    (∀ x, utf8Decode c.data = some x → Answers s (.chunkDataAsText c) (okResponse (.text x))) ∧
    (utf8Decode c.data = none → Answers s (.chunkDataAsText c) (errResponse .notUtf8)) ∧
    (c.data = [] → Answers s (.chunkDataAsText c) (okResponse (.text [])))

/-- spec/42_chunk.md R106: the table admits exactly the sequences of scalar values in their shortest form, and a byte
sequence below 0x80 yields one character per byte. -/
def Obligations.Utf8IsExactlyTheShortestForms : Prop :=
  (∀ (d : Bytes) (x : Text), utf8Decode d = some x ↔ isText x = true ∧ d = x.flatMap utf8Encode) ∧
  (∀ d : Bytes, (∀ b ∈ d, b.toNat < 0x80) → utf8Decode d = some (d.map zext21))

/-- spec/42_chunk.md R108, spec/30_encoding.md R50: the frame in the wire layout, `12 + length` bytes, well-formed, and
different Chunks give different frames. -/
def Obligations.ChunkSerializeWritesTheWireLayout : Prop :=
  (∀ (s : State) (c : Chunk), isChunk s.params c = true →
    Answers s (.chunkSerialize c)
      (okResponse (.bytes ((toBe32 c.length).toList ++ c.type.toList ++ c.data ++ (toBe32 c.crc).toList))) ∧
    (frameBytes c).length = 12 + c.length.toNat ∧ wellFormedFrame (frameBytes c)) ∧
  (∀ (p : Params) (c c' : Chunk), isChunk p c = true → isChunk p c' = true → frameBytes c = frameBytes c' → c = c')

/-- spec/42_chunk.md R109, spec/60_exceptions.md R126: every buffer within the bound, by the first of the four failures
that applies, else the Chunk. A buffer of 12 or more bytes is its length field, type field, payload and checksum field;
the last clause says that this leaves none out. -/
def Obligations.ChunkParseFollowsItsSteps : Prop :=
  (∀ (s : State) (f : Bytes), f.length ≤ s.params.maxPayload.toNat + 12 → f.length < 12 →
    Answers s (.chunkParse f) (errResponse .truncated)) ∧
  (∀ (s : State) (l t k : Bytes4) (d : Bytes), d.length ≤ s.params.maxPayload.toNat →
    (s.params.lenPolicy = .strict ∧ (be32 l).toNat ≠ d.length →
      Answers s (.chunkParse (l.toList ++ t.toList ++ d ++ k.toList)) (errResponse .invalidLength)) ∧
    (s.params.lenPolicy = .infer ∨ (be32 l).toNat = d.length →
      (isTag t = false →
        Answers s (.chunkParse (l.toList ++ t.toList ++ d ++ k.toList)) (errResponse .invalidTypeBytes)) ∧
      (isTag t = true → crc32 (t.toList ++ d) ≠ be32 k →
        Answers s (.chunkParse (l.toList ++ t.toList ++ d ++ k.toList)) (errResponse .checksumMismatch)) ∧
      (isTag t = true → crc32 (t.toList ++ d) = be32 k →
        Answers s (.chunkParse (l.toList ++ t.toList ++ d ++ k.toList)) (okResponse (.chunk (chunkOf t d)))))) ∧
  (∀ f : Bytes, 12 ≤ f.length →
    ∃ (l t k : Bytes4) (d : Bytes), f = l.toList ++ t.toList ++ d ++ k.toList ∧ d.length = f.length - 12)

/-- spec/42_chunk.md R110: parse after serialize gives the Chunk back under both policies; under STRICT serialize after
parse gives the buffer back, and under INFER all of it but bytes 0..3, where `to_be32(n - 12)` stands. Under STRICT every
well-formed frame within the bound is the frame of a Chunk, so the two are inverse bijections. -/
def Obligations.ParseAndSerializeAreInverse : Prop :=
  (∀ (s s' : State) (t : Bytes4) (d : Bytes), s'.params = s.params → isTag t = true →
    d.length ≤ s.params.maxPayload.toNat →
    ∃ c f, Answers s (.chunkNew t d) (okResponse (.chunk c)) ∧
      Answers s (.chunkSerialize c) (okResponse (.bytes f)) ∧ Answers s' (.chunkParse f) (okResponse (.chunk c))) ∧
  (∀ (s : State) (f : Bytes) (c : Chunk), Answers s (.chunkParse f) (okResponse (.chunk c)) →
    (s.params.lenPolicy = .strict → Answers s (.chunkSerialize c) (okResponse (.bytes f))) ∧
    (s.params.lenPolicy = .infer →
      Answers s (.chunkSerialize c) (okResponse (.bytes ((toBe32 (BitVec.ofNat 32 (f.length - 12))).toList ++ f.drop 4))))) ∧
  (∀ (s : State) (f : Bytes), s.params.lenPolicy = .strict → f.length ≤ s.params.maxPayload.toNat + 12 →
    wellFormedFrame f →
    ∃ c, Answers s (.chunkParse f) (okResponse (.chunk c)) ∧ Answers s (.chunkSerialize c) (okResponse (.bytes f)))

/-- spec/42_chunk.md R111, the table: the response to a frame with one bit inverted, by region and policy. -/
def Obligations.OneFlippedBitIsDetected : Prop :=
  ∀ (s : State) (c : Chunk) (o k : Nat), isChunk s.params c = true → o < 12 + c.length.toNat → k < 8 →
    (o < 4 → s.params.lenPolicy = .strict →
      Answers s (.chunkParse (flipBit (frameBytes c) o k)) (errResponse .invalidLength)) ∧
    (o < 4 → s.params.lenPolicy = .infer →
      Answers s (.chunkParse (flipBit (frameBytes c) o k)) (okResponse (.chunk c))) ∧
    (4 ≤ o → o < 8 → isLetter ((flipBit (frameBytes c) o k).getD o 0#8) = false →
      Answers s (.chunkParse (flipBit (frameBytes c) o k)) (errResponse .invalidTypeBytes)) ∧
    (4 ≤ o → o < 8 → isLetter ((flipBit (frameBytes c) o k).getD o 0#8) = true →
      Answers s (.chunkParse (flipBit (frameBytes c) o k)) (errResponse .checksumMismatch)) ∧
    (4 ≤ o → o < 8 → k = 5 → isLetter ((flipBit (frameBytes c) o k).getD o 0#8) = true) ∧
    (8 ≤ o → Answers s (.chunkParse (flipBit (frameBytes c) o k)) (errResponse .checksumMismatch))

/-- spec/42_chunk.md R112: which buffers parse under each policy, that STRICT accepts nothing INFER would not give the
same Chunk for, and what a strict prefix of a well-formed frame gets. -/
def Obligations.WhichBuffersParse : Prop :=
  (∀ (s : State) (f : Bytes), f.length ≤ s.params.maxPayload.toNat + 12 → s.params.lenPolicy = .strict →
    ((∃ c, Answers s (.chunkParse f) (okResponse (.chunk c))) ↔ wellFormedFrame f)) ∧
  (∀ (s : State) (f : Bytes), f.length ≤ s.params.maxPayload.toNat + 12 → s.params.lenPolicy = .infer →
    ((∃ c, Answers s (.chunkParse f) (okResponse (.chunk c))) ↔ frameButForLength f)) ∧
  (∀ (s s' : State) (f : Bytes) (c : Chunk), s.params.lenPolicy = .strict → s'.params.lenPolicy = .infer →
    s'.params.maxPayload = s.params.maxPayload → Answers s (.chunkParse f) (okResponse (.chunk c)) →
    Answers s' (.chunkParse f) (okResponse (.chunk c))) ∧
  (∀ (s : State) (f : Bytes) (n : Nat), f.length ≤ s.params.maxPayload.toNat + 12 → wellFormedFrame f →
    12 ≤ n → n < f.length →
    (s.params.lenPolicy = .strict → Answers s (.chunkParse (f.take n)) (errResponse .invalidLength)) ∧
    (s.params.lenPolicy = .infer → be32 (fieldAt f (n - 4)) ≠ crc32 (slice f 4 (n - 4)) →
      Answers s (.chunkParse (f.take n)) (errResponse .checksumMismatch)))

/- Errors -/

/-- spec/30_encoding.md R56, spec/60_exceptions.md R120: the codes and the kinds of the six errors. -/
def Obligations.ErrorCodesAndKinds : Prop :=
  (Err.invalidTypeBytes.code = 1#3 ∧ Err.invalidTypeBytes.kind = .k1) ∧
  (Err.invalidCharacter.code = 2#3 ∧ Err.invalidCharacter.kind = .k1) ∧
  (Err.invalidLength.code = 3#3 ∧ Err.invalidLength.kind = .k2) ∧
  (Err.truncated.code = 4#3 ∧ Err.truncated.kind = .k2) ∧
  (Err.checksumMismatch.code = 5#3 ∧ Err.checksumMismatch.kind = .k3) ∧
  (Err.notUtf8.code = 6#3 ∧ Err.notUtf8.kind = .k4)

/-- spec/60_exceptions.md R121 to R125 and R135: the code and the kind of each error, and which admitted requests get it,
over all operations. An error response carries the code and no value. -/
def Obligations.EachErrorExactlyWhenItsCauseHolds : Prop :=
  [Err.invalidTypeBytes, .invalidCharacter, .invalidLength, .truncated, .checksumMismatch, .notUtf8].map
      (fun e => (e.code, e.kind)) =
    [(1#3, .k1), (2#3, .k1), (3#3, .k2), (4#3, .k2), (5#3, .k3), (6#3, .k4)] ∧
  ∀ (s : State) (i : Instr), i.wf s.params = true →
    (Answers s i (errResponse .invalidTypeBytes) ↔
      (∃ b, i = .tagFromBytes b ∧ isTag b = false) ∨
      (∃ f, i = .chunkParse f ∧ 12 ≤ f.length ∧ isTag (fieldAt f 4) = false ∧
        (s.params.lenPolicy = .strict → (be32 (fieldAt f 0)).toNat = f.length - 12))) ∧
    (Answers s i (errResponse .invalidCharacter) ↔
      ∃ x, i = .tagFromText x ∧ x.length = 4 ∧ ∃ ch ∈ x, isAsciiLetter ch = false) ∧
    (Answers s i (errResponse .invalidLength) ↔
      (∃ x, i = .tagFromText x ∧ x.length ≠ 4) ∨
      (∃ f, i = .chunkParse f ∧ s.params.lenPolicy = .strict ∧ 12 ≤ f.length ∧
        (be32 (fieldAt f 0)).toNat ≠ f.length - 12)) ∧
    (Answers s i (errResponse .truncated) ↔ ∃ f, i = .chunkParse f ∧ f.length < 12) ∧
    (Answers s i (errResponse .checksumMismatch) ↔
      ∃ f, i = .chunkParse f ∧ 12 ≤ f.length ∧ isTag (fieldAt f 4) = true ∧
        (s.params.lenPolicy = .strict → (be32 (fieldAt f 0)).toNat = f.length - 12) ∧
        crc32 (slice f 4 (f.length - 4)) ≠ be32 (fieldAt f (f.length - 4))) ∧
    (Answers s i (errResponse .notUtf8) ↔ ∃ c, i = .chunkDataAsText c ∧ utf8Decode c.data = none)

/-- spec/30_encoding.md R60, R58: an answered request has status 0 or one of the codes of the operation's column, and
never 7; a refused request has no response at all. -/
def Obligations.StatusStaysWithinTheColumn : Prop :=
  ∀ (s : State) (i : Instr),
    (∀ t r, exec i s = .next t → t.response = some r →
      r.st ≠ 7#3 ∧ (r.st = 0#3 ∨ ∃ e ∈ raisable s.params.lenPolicy i, r = errResponse e)) ∧
    (∀ why, exec i s = .refused why → visible (exec i s) = .refused why)

/-- spec/30_encoding.md R55, R58; spec/60_exceptions.md R128: a result value is there exactly when the status is 0, and
it has the result type of the operation. -/
def Obligations.ResultValueExactlyOnSuccess : Prop :=
  ∀ (s t : State) (i : Instr) (r : Response), exec i s = .next t → t.response = some r →
    (r.st = 0#3 ↔ r.value.isSome = true) ∧ ∀ v, r.value = some v → v.portType = i.opcode.resultType

/-- spec/60_exceptions.md R134: the refused requests, row by row: a Tag operand that is not a Tag, a Chunk operand that is
not a Chunk, the three bounds, and a text with a value that is not a character. The refusals' names are the model's, log
entry 17. -/
def Obligations.IllTypedRequestsAreRefused : Prop :=
  (∀ (s : State) (t : Bytes4), isTag t = false →
    exec (.tagBytes t) s = .refused .notATag ∧ exec (.tagIsCritical t) s = .refused .notATag ∧
    exec (.tagIsPublic t) s = .refused .notATag ∧ exec (.tagIsReservedBitValid t) s = .refused .notATag ∧
    exec (.tagIsSafeToCopy t) s = .refused .notATag ∧ exec (.tagIsValid t) s = .refused .notATag ∧
    exec (.tagDisplay t) s = .refused .notATag ∧ ∀ d, exec (.chunkNew t d) s = .refused .notATag) ∧
  (∀ (s : State) (c : Chunk),
    c.length.toNat ≠ c.data.length ∨ c.crc ≠ crc32 (c.type.toList ++ c.data) ∨ isTag c.type = false ∨
      s.params.maxPayload.toNat < c.data.length →
    exec (.chunkLength c) s = .refused .notAChunk ∧ exec (.chunkType c) s = .refused .notAChunk ∧
    exec (.chunkData c) s = .refused .notAChunk ∧ exec (.chunkCrc c) s = .refused .notAChunk ∧
    exec (.chunkDataAsText c) s = .refused .notAChunk ∧ exec (.chunkSerialize c) s = .refused .notAChunk) ∧
  (∀ (s : State) (t : Bytes4) (d : Bytes), isTag t = true → s.params.maxPayload.toNat < d.length →
    exec (.chunkNew t d) s = .refused .oversize) ∧
  (∀ (s : State) (f : Bytes), s.params.maxPayload.toNat + 12 < f.length →
    exec (.chunkParse f) s = .refused .oversize) ∧
  (∀ (s : State) (m : Bytes), s.params.maxPayload.toNat + 4 < m.length → exec (.crc32 m) s = .refused .oversize) ∧
  (∀ (s : State) (x : Text), (∃ ch ∈ x, 0x10FFFF < ch.toNat ∨ (0xD800 ≤ ch.toNat ∧ ch.toNat ≤ 0xDFFF)) →
    exec (.tagFromText x) s = .refused .notAText)

/-- spec/60_exceptions.md R136, spec/20_memory.md R36: no operation and no step ends in the internal-invariant fault (log
entry 15). -/
def Obligations.NoStepFaults : Prop :=
  (∀ (i : Instr) (s : State) (e : Fault), exec i s ≠ .fault e) ∧ (∀ (s : State) (e : Fault), step s ≠ .fault e)

/- The machine as a whole -/

/-- spec/70_reset_and_hazards.md R147, R148: every admitted instruction gets exactly one response, and only an admitted
one gets any (spec/00_scope.md R7). -/
def Obligations.ExactlyTheAdmittedRequestsAreAnswered : Prop :=
  ∀ (s : State) (i : Instr),
    (i.wf s.params = true → ∃ r, Answers s i r ∧ ∀ r', Answers s i r' → r' = r) ∧
    (i.wf s.params = false → ∃ why, exec i s = .refused why)

/-- The frame of every operation (spec/00_scope.md R5, spec/10_state.md R10, R21): a completed operation changes neither
parameter, leaves no request in flight, and puts a response on the port. What the working registers hold afterwards is
unspecified, so nothing is said of them. -/
def Obligations.CompletedOperationFrame : Prop :=
  ∀ (s t : State) (i : Instr), exec i s = .next t →
    t.params.maxPayload = s.params.maxPayload ∧ t.params.lenPolicy = s.params.lenPolicy ∧ t.inFlight = none ∧
    ∃ r, t.response = some r

/-- spec/00_scope.md R5, spec/10_state.md R21: no step, no request and no reset changes MAX_PAYLOAD or LEN_POLICY. -/
def Obligations.ParametersNeverChange : Prop :=
  ∀ s t : State,
    (step s = .next t → t.params = s.params) ∧ (∀ r, s.issue r = .next t → t.params = s.params) ∧
    s.assertReset.params = s.params

/-- spec/10_state.md R10: what the host sees of an operation depends on the opcode, the operands and the parameters alone:
not on an earlier response, not on the working registers (R14, R21) and not on how much ran before. -/
def Obligations.ResponseDependsOnRequestAndParameters : Prop :=
  (∀ (i : Instr) (s s' : State), s.params = s'.params → visible (exec i s) = visible (exec i s')) ∧
  (∀ (r : Request) (s s' : State), s.params = s'.params → s.inFlight = some r → s'.inFlight = some r →
    visible (step s) = visible (step s')) ∧
  (∀ (i : Instr) (s : State) (w : Work) (k : Nat), visible (exec i s) = visible (exec i (s.withWork w k)))

/-- At reset the result port satisfies the invariant. -/
def Obligations.ResetSatisfiesTheInvariant : Prop := Inv State.reset

/-- The invariant every step keeps, from every state that has it: what stands on the result port has format RSP, its
status is never 7 (spec/30_encoding.md R55, R60), and a Tag, Chunk, text or buffer in it satisfies its type's invariants
on this instance (spec/10_state.md R11, R12; spec/40_tag.md R80 (c)). -/
def Obligations.EveryStepKeepsTheInvariant : Prop :=
  ∀ s t : State, Inv s → step s = .next t → Inv t

/-- The invariant does not lean on the state before: any instruction that completes establishes it. -/
def Obligations.EveryOperationEstablishesTheInvariant : Prop :=
  ∀ (s t : State) (i : Instr), exec i s = .next t → Inv t

/-- spec/10_state.md R10, spec/20_memory.md R38: a program of admitted requests run on an idle instance gives, in order,
the responses each request gets by itself on any other idle instance with the same parameters. -/
def Obligations.ProgramIsIndependentApplications : Prop :=
  ∀ (p : List Request) (s s0 : State), s.inFlight = none → s0.inFlight = none → s0.params = s.params →
    (∀ r ∈ p, Admitted s.params r) →
    ∃ t rs, runProgram p s = .next (t, rs) ∧ t.inFlight = none ∧ t.params = s.params ∧
      rs.map (fun r => Visible.answered (some r)) = p.map (fun r => visible (transact r s0))

/-- spec/60_exceptions.md R129: after an error the next request is answered as if the failed one had never been issued. -/
def Obligations.AnErrorLeavesNothingBehind : Prop :=
  ∀ (s t : State) (e : Err) (i : Instr) (r : Request), s.inFlight = none → exec i s = .next t →
    t.response = some (errResponse e) →
    visible (transact r t) = visible (transact r s)
end

