-- ==== Sys2Proof/Laws/Bytes.lean ====
section
/-! SUPPORT. What the buffer operations answer, said once: a read or write within bounds succeeds with the bytes the rules
name, and one out of bounds has no value. -/

namespace Sys2Proof

@[simp] theorem Bytes4.toList_length (v : Bytes4) : v.toList.length = 4 := rfl

/-- A read in bounds is the slice. -/
theorem memRead_eq_some {buf : Bytes} {off n : Nat} (h : off + n ≤ buf.length) :
    memRead buf off n = some ((buf.drop off).take n) := if_pos h

/-- A read out of bounds has no value. -/
theorem memRead_eq_none {buf : Bytes} {off n : Nat} (h : ¬off + n ≤ buf.length) : memRead buf off n = none := if_neg h

/-- The slice that stands between a prefix and a suffix. -/
theorem memRead_append (a v c : Bytes) : memRead (a ++ v ++ c) a.length v.length = some v := by
  rw [memRead_eq_some (by simp)]; simp

/-- The four bytes that stand between a prefix and a suffix. -/
theorem memRead4_append (a c : Bytes) (v : Bytes4) : memRead4 (a ++ v.toList ++ c) a.length = some v := by
  simp only [memRead4, show (4 : Nat) = v.toList.length from rfl, memRead_append, Bytes4.toList]

/-- A write of `v` over bytes as many as it has leaves the prefix and the suffix. -/
theorem memWrite_append (a old v c : Bytes) (h : v.length = old.length) :
    memWrite (a ++ old ++ c) a.length v.length v = some (a ++ v ++ c) := by
  have h2 : a.length + v.length = (a ++ old).length := by simp [h]
  have hd : (a ++ old ++ c).drop (a.length + v.length) = c := by rw [h2]; exact List.drop_left
  have ht : (a ++ old ++ c).take a.length = a := by rw [List.append_assoc]; exact List.take_left
  rw [memWrite, hd, ht, if_pos ⟨rfl, by simp [h]⟩]

/-- A write keeps the length of the buffer. -/
theorem memWrite_length {buf v out : Bytes} {off n : Nat} (h : memWrite buf off n v = some out) :
    out.length = buf.length := by
  unfold memWrite at h
  split at h
  · cases h; simp; omega
  · cases h

end Sys2Proof
end

