-- ==== Sys2Proof/Laws/Crc32.lean ====
section
/-! SUPPORT. The shift step and the per-byte step as functions over XOR (spec/41_crc32.md R91, R92): linear, injective, and
composable over a split of the message. -/

namespace Sys2Proof

/-- The shift step is linear over XOR. -/
theorem shiftStep_xor (x y : U32) : shiftStep (x ^^^ y) = shiftStep x ^^^ shiftStep y := by
  have e : (x.getLsbD 0 ^^ y.getLsbD 0) = (x ^^^ y).getLsbD 0 := by simp
  have c (a : U32) : crcPoly ^^^ (crcPoly ^^^ a) = a := by rw [← BitVec.xor_assoc]; simp
  unfold shiftStep
  rw [← e]
  generalize x.getLsbD 0 = p
  generalize y.getLsbD 0 = q
  cases p <;> cases q <;> simp only [BitVec.ushiftRight_xor_distrib, Bool.xor_false, Bool.xor_self,
    Bool.xor_true, Bool.not_false, if_true, if_false, Bool.false_eq_true]
  · ac_rfl
  · ac_rfl
  · rw [show x >>> 1 ^^^ crcPoly ^^^ (y >>> 1 ^^^ crcPoly) = crcPoly ^^^ (crcPoly ^^^ (x >>> 1 ^^^ y >>> 1)) by ac_rfl, c]

/-- Only zero shifts to zero: a step with the polynomial in it leaves bit 31 set. -/
theorem shiftStep_eq_zero {v : U32} (h : shiftStep v = 0#32) : v = 0#32 := by
  unfold shiftStep at h
  split at h
  · have : ((v >>> 1) ^^^ crcPoly).getLsbD 31 = true := by simp [crcPoly]
    rw [h] at this
    simp at this
  · rename_i h0
    apply BitVec.eq_of_getLsbD_eq
    intro i _
    cases i with
    | zero => simpa using h0
    | succ i => simpa [BitVec.getLsbD_ushiftRight, Nat.add_comm] using congrArg (fun u => u.getLsbD i) h

theorem shiftStep_injective : Function.Injective shiftStep := by
  intro x y h
  have := shiftStep_eq_zero (v := x ^^^ y) (by rw [shiftStep_xor, h]; simp)
  simpa [BitVec.xor_eq_zero_iff] using this

theorem shiftSteps_injective (k : Nat) : Function.Injective (shiftSteps k) := by
  induction k with
  | zero => exact fun _ _ h => h
  | succ k ih => exact fun _ _ h => shiftStep_injective (ih h)

theorem shiftSteps_xor (k : Nat) (x y : U32) : shiftSteps k (x ^^^ y) = shiftSteps k x ^^^ shiftSteps k y := by
  induction k generalizing x y with
  | zero => rfl
  | succ k ih => simp [shiftSteps, shiftStep_xor, ih]

theorem shiftSteps_add (j k : Nat) (v : U32) : shiftSteps (j + k) v = shiftSteps k (shiftSteps j v) := by
  induction j generalizing v with
  | zero => simp [shiftSteps]
  | succ j ih => rw [Nat.add_right_comm]; exact ih (shiftStep v)

/-- The per-byte step is linear in the accumulator and the byte together. -/
theorem crcStep_xor (x y : U32) (a b : Byte) : crcStep (x ^^^ y) (a ^^^ b) = crcStep x a ^^^ crcStep y b := by
  unfold crcStep shift8
  rw [← shiftSteps_xor, show (a ^^^ b).zeroExtend 32 = a.zeroExtend 32 ^^^ b.zeroExtend 32 by simp]
  congr 1
  ac_rfl

/-- The per-byte step is injective in the accumulator. -/
theorem crcStep_injective_acc (b : Byte) : Function.Injective fun acc => crcStep acc b := by
  intro x y h
  simpa using shiftSteps_injective 8 h

@[simp] theorem crcFold_nil (acc : U32) : crcFold acc [] = acc := rfl
@[simp] theorem crcFold_cons (acc : U32) (b : Byte) (m : Bytes) : crcFold acc (b :: m) = crcFold (crcStep acc b) m := rfl

theorem crcFold_append (acc : U32) (a b : Bytes) : crcFold acc (a ++ b) = crcFold (crcFold acc a) b :=
  List.foldl_append

/-- The walk of a message is injective in the accumulator it starts from. -/
theorem crcFold_injective_acc (m : Bytes) : Function.Injective fun acc => crcFold acc m := by
  induction m with
  | nil => exact fun _ _ h => h
  | cons b m ih => exact fun _ _ h => crcStep_injective_acc b (ih h)

end Sys2Proof
end

