-- ==== Sys2Proof/Laws/State.lean ====
section
/-! SUPPORT. One lemma per field per update of the state and of the working registers, so that no later proof unfolds a
record update. -/

namespace Sys2Proof.Machine

variable (s : State) (w : Work) (r : Response)

@[simp] theorem State.answer_params : (s.answer r).params = s.params := rfl
@[simp] theorem State.answer_inFlight : (s.answer r).inFlight = none := rfl
@[simp] theorem State.answer_response : (s.answer r).response = some r := rfl
@[simp] theorem State.answer_work : (s.answer r).work = Work.free s.freeCount := rfl
@[simp] theorem State.answer_freeCount : (s.answer r).freeCount = s.freeCount + 1 := rfl

@[simp] theorem State.assertReset_params : s.assertReset.params = s.params := rfl
@[simp] theorem State.assertReset_inFlight : s.assertReset.inFlight = none := rfl
@[simp] theorem State.assertReset_response : s.assertReset.response = none := rfl
@[simp] theorem State.assertReset_work : s.assertReset.work = Work.atReset := rfl
@[simp] theorem State.assertReset_freeCount : s.assertReset.freeCount = s.freeCount := rfl

@[simp] theorem State.withFetchWord_params (nbits word : Nat) : (s.withFetchWord nbits word).params = s.params := rfl
@[simp] theorem State.withFetchWord_inFlight (nbits word : Nat) :
    (s.withFetchWord nbits word).inFlight = some (requestOfWord word) := rfl
@[simp] theorem State.withFetchWord_response (nbits word : Nat) :
    (s.withFetchWord nbits word).response = s.response := rfl
@[simp] theorem State.withFetchWord_work (nbits word : Nat) : (s.withFetchWord nbits word).work = s.work := rfl
@[simp] theorem State.withFetchWord_freeCount (nbits word : Nat) :
    (s.withFetchWord nbits word).freeCount = s.freeCount := rfl

@[simp] theorem Work.start_acc : w.start.acc = w.acc := rfl
@[simp] theorem Work.start_idx : w.start.idx = 0#33 := rfl
@[simp] theorem Work.start_lenr : w.start.lenr = w.lenr := rfl
@[simp] theorem Work.start_tagr : w.start.tagr = w.tagr := rfl
@[simp] theorem Work.start_crcr : w.start.crcr = w.crcr := rfl
@[simp] theorem Work.start_errr : w.start.errr = 0#3 := rfl

@[simp] theorem Work.initAcc_acc : w.initAcc.acc = crcInit := rfl
@[simp] theorem Work.initAcc_idx : w.initAcc.idx = w.idx := rfl
@[simp] theorem Work.initAcc_lenr : w.initAcc.lenr = w.lenr := rfl
@[simp] theorem Work.initAcc_tagr : w.initAcc.tagr = w.tagr := rfl
@[simp] theorem Work.initAcc_crcr : w.initAcc.crcr = w.crcr := rfl
@[simp] theorem Work.initAcc_errr : w.initAcc.errr = w.errr := rfl

@[simp] theorem Work.crcByte_acc (b : Byte) : (w.crcByte b).acc = crcStep w.acc b := rfl
@[simp] theorem Work.crcByte_idx (b : Byte) : (w.crcByte b).idx = w.idx + 1#33 := rfl
@[simp] theorem Work.crcByte_lenr (b : Byte) : (w.crcByte b).lenr = w.lenr := rfl
@[simp] theorem Work.crcByte_tagr (b : Byte) : (w.crcByte b).tagr = w.tagr := rfl
@[simp] theorem Work.crcByte_crcr (b : Byte) : (w.crcByte b).crcr = w.crcr := rfl
@[simp] theorem Work.crcByte_errr (b : Byte) : (w.crcByte b).errr = w.errr := rfl

end Sys2Proof.Machine
end

