-- ==== Sys2Proof/Laws/Ops.lean ====
section
/-! SUPPORT. What each shared operation can do, said once: the delivery of a response, the admission of operands, the walk of
a buffer through the accumulator, and the writes of a frame. -/

namespace Sys2Proof.Machine

/-- A delivery that answers a next state delivers a value with the status in ERRR, or that status alone. -/
theorem deliver_next {d : Done} {s t : State} (h : deliver d s = .next t) :
    (∃ v w, d = .returned v w ∧ t = s.answer { st := w.errr, value := some v }) ∨
    (∃ w, d = .raised w ∧ t = s.answer { st := w.errr, value := none }) := by
  cases d with
  | returned v w => exact .inl ⟨v, w, rfl, (Host.Outcome.next.inj h).symm⟩
  | raised w => exact .inr ⟨w, rfl, (Host.Outcome.next.inj h).symm⟩
  | aborted => exact nomatch h

@[simp] theorem deliver_returned (v : PortValue) (w : Work) (s : State) :
    deliver (.returned v w) s = .next (s.answer { st := w.errr, value := some v }) := rfl

@[simp] theorem deliver_raise (e : Err) (w : Work) (s : State) :
    deliver (raise e w) s = .next (s.answer { st := e.code, value := none }) := rfl

/-- An operation on a Tag operand runs with TAGR holding it, or is refused. -/
theorem withTag_cases (t : Bytes4) (body : Work → Done) (s : State) :
    (isTag t = true ∧ withTag t body s = deliver (body { s.work.start with tagr := t }) s) ∨
    (isTag t = false ∧ withTag t body s = .refused .notATag) := by
  cases h : isTag t <;> simp [withTag, h]

/-- An operation on a Chunk operand runs, or is refused. -/
theorem withChunk_cases (c : Chunk) (body : Work → Done) (s : State) :
    (isChunk s.params c = true ∧ withChunk c body s = deliver (body s.work.start) s) ∨
    (isChunk s.params c = false ∧ withChunk c body s = .refused .notAChunk) := by
  cases h : isChunk s.params c <;> simp [withChunk, h]

/-- An operation on a buffer runs, or is refused. -/
theorem withBound_cases (fits : Bool) (body : Work → Done) (s : State) :
    (fits = true ∧ withBound fits body s = deliver (body s.work.start) s) ∨
    (fits = false ∧ withBound fits body s = .refused .oversize) := by
  cases fits <;> simp [withBound]

/-- The accumulator after a walk is the fold of `crc_step` over the buffer. -/
@[simp] theorem Work.crcWalk_acc (w : Work) (m : Bytes) : (w.crcWalk m).acc = crcFold w.acc m := by
  suffices ∀ v : Work, (m.foldl Work.crcByte v).acc = m.foldl crcStep v.acc from this _
  induction m with
  | nil => intro v; rfl
  | cons b m ih => intro v; exact ih (v.crcByte b)

/-- A walk changes ACC and IDX only. -/
theorem Work.crcWalk_frame (w : Work) (m : Bytes) :
    (w.crcWalk m).lenr = w.lenr ∧ (w.crcWalk m).tagr = w.tagr ∧ (w.crcWalk m).crcr = w.crcr ∧
    (w.crcWalk m).errr = w.errr := by
  suffices ∀ v : Work, (m.foldl Work.crcByte v).lenr = v.lenr ∧ (m.foldl Work.crcByte v).tagr = v.tagr ∧
      (m.foldl Work.crcByte v).crcr = v.crcr ∧ (m.foldl Work.crcByte v).errr = v.errr from this _
  induction m with
  | nil => intro v; exact ⟨rfl, rfl, rfl, rfl⟩
  | cons b m ih => intro v; exact ih (v.crcByte b)

@[simp] theorem Work.crcWalk_lenr (w : Work) (m : Bytes) : (w.crcWalk m).lenr = w.lenr := (w.crcWalk_frame m).1
@[simp] theorem Work.crcWalk_tagr (w : Work) (m : Bytes) : (w.crcWalk m).tagr = w.tagr := (w.crcWalk_frame m).2.1
@[simp] theorem Work.crcWalk_crcr (w : Work) (m : Bytes) : (w.crcWalk m).crcr = w.crcr := (w.crcWalk_frame m).2.2.1
@[simp] theorem Work.crcWalk_errr (w : Work) (m : Bytes) : (w.crcWalk m).errr = w.errr := (w.crcWalk_frame m).2.2.2

/-- A fresh output buffer has the bytes asked for. -/
@[simp] theorem freshBuffer_length (n : Nat) : (freshBuffer n).length = n := by simp [freshBuffer]

/-- The step of a state with a request in flight is what its decoding says. -/
theorem step_inFlight {s : State} {r : Request} (h : s.inFlight = some r) :
    step s = match decode r with
      | .ok i => exec i s
      | .error e => .refused (refusalOf e) := by
  cases hd : decode r <;> simp only [step, h, hd]

end Sys2Proof.Machine
end

