-- ==== Sys2Proof/Laws/Chunk.lean ====
section
/-! SUPPORT. What the shared operations of the CHUNK unit answer, said once: the Chunk that is built, the frame that is
written, and the parse of a buffer split into its four fields. -/

namespace Sys2Proof.Machine

/-- The Chunk that construction builds. -/
@[simp] theorem buildChunk_chunk (t : Bytes4) (d : Bytes) (w : Work) :
    (buildChunk t d w).1 =
      { length := BitVec.ofNat 32 d.length, type := t, data := d, crc := crc32 (t.toList ++ d) } := by
  simp [buildChunk, Work.crcOut, crc32, crcFold_append]

/-- Construction changes ACC, IDX and LENR only. -/
theorem buildChunk_frame (t : Bytes4) (d : Bytes) (w : Work) :
    (buildChunk t d w).2.tagr = w.tagr ∧ (buildChunk t d w).2.crcr = w.crcr ∧ (buildChunk t d w).2.errr = w.errr := by
  simp [buildChunk]

@[simp] theorem buildChunk_crcr (t : Bytes4) (d : Bytes) (w : Work) : (buildChunk t d w).2.crcr = w.crcr :=
  (buildChunk_frame t d w).2.1
@[simp] theorem buildChunk_errr (t : Bytes4) (d : Bytes) (w : Work) : (buildChunk t d w).2.errr = w.errr :=
  (buildChunk_frame t d w).2.2

/-- The four writes fill a buffer of the right size with the frame, whatever it held. -/
theorem writeFrame_eq {c : Chunk} {out : Bytes} (hl : c.length.toNat = c.data.length)
    (ho : out.length = 12 + c.data.length) :
    writeFrame c c.length.toNat out =
      some ((toBe32 c.length).toList ++ c.type.toList ++ c.data ++ (toBe32 c.crc).toList) := by
  obtain ⟨o1, r1, rfl, h1⟩ : ∃ o r, out = o ++ r ∧ o.length = 4 := ⟨out.take 4, out.drop 4, by simp, by simp; omega⟩
  obtain ⟨o2, r2, rfl, h2⟩ : ∃ o r, r1 = o ++ r ∧ o.length = 4 :=
    ⟨r1.take 4, r1.drop 4, by simp, by simp at *; omega⟩
  obtain ⟨o3, o4, rfl, h3⟩ : ∃ o r, r2 = o ++ r ∧ o.length = c.data.length :=
    ⟨r2.take c.data.length, r2.drop c.data.length, by simp, by simp at *; omega⟩
  have h4 : o4.length = 4 := by simp at *; omega
  have e1 := memWrite_append [] o1 (toBe32 c.length).toList (o2 ++ (o3 ++ o4)) (by simp [h1])
  have e2 := memWrite_append (toBe32 c.length).toList o2 c.type.toList (o3 ++ o4) (by simp [h2])
  have e3 := memWrite_append ((toBe32 c.length).toList ++ c.type.toList) o3 c.data o4 (by simp [h3])
  have e4 := memWrite_append ((toBe32 c.length).toList ++ c.type.toList ++ c.data) o4 (toBe32 c.crc).toList []
    (by simp [h4])
  simp only [List.append_assoc, List.nil_append, List.length_nil, Bytes4.toList_length, List.length_append,
    List.append_nil] at e1 e2 e3 e4
  rw [writeFrame, e1, Option.bind_some, e2, Option.bind_some, hl, e3, Option.bind_some,
    show 8 + c.data.length = 4 + (4 + c.data.length) by omega, e4]
  simp

/-- Steps 6 to 8 of the parse. -/
theorem parseVerify_eq (d : Bytes) (w : Work) :
    parseVerify d w =
      if crc32 (w.tagr.toList ++ d) = w.crcr then .returned (.chunk (buildChunk w.tagr d w).1) (buildChunk w.tagr d w).2
      else raise .checksumMismatch (buildChunk w.tagr d w).2 := by
  simp [parseVerify]

/-- Steps 3 to 5 of the parse, on a buffer split into its four fields. -/
theorem parseFields_eq (l t k : Bytes4) (d : Bytes) (w : Work) :
    parseFields (l.toList ++ t.toList ++ d ++ k.toList) w =
      if isTag t then parseVerify d { w with tagr := t, crcr := be32 k }
      else raise .invalidTypeBytes { w with tagr := t } := by
  have e1 := memRead4_append l.toList (d ++ k.toList) t
  have e2 := memRead_append (l.toList ++ t.toList) d k.toList
  have e3 := memRead4_append (l.toList ++ t.toList ++ d) [] k
  simp only [parseFields, List.append_assoc, List.append_nil, Bytes4.toList_length, List.length_append] at e1 e2 e3 ⊢
  rw [e1, show 4 + (4 + (d.length + 4)) - 12 = d.length by omega, e2,
    show 4 + (4 + (d.length + 4)) - 4 = 4 + (4 + d.length) by omega, e3]

/-- Steps 1 and 2 of the parse, on a buffer split into its four fields. -/
theorem parseFrame_eq (p : LenPolicy) (l t k : Bytes4) (d : Bytes) (w : Work) :
    parseFrame p (l.toList ++ t.toList ++ d ++ k.toList) w =
      if p = .strict ∧ (be32 l).toNat ≠ d.length then raise .invalidLength { w with lenr := be32 l }
      else parseFields (l.toList ++ t.toList ++ d ++ k.toList) { w with lenr := be32 l } := by
  have e1 := memRead4_append [] (t.toList ++ (d ++ k.toList)) l
  simp only [parseFrame, List.append_assoc, List.nil_append, List.length_nil, Bytes4.toList_length,
    List.length_append] at e1 ⊢
  rw [e1, if_neg (by omega), show 4 + (4 + (d.length + 4)) - 12 = d.length by omega]

/-- Step 1 of the parse, on a short buffer. -/
theorem parseFrame_short (p : LenPolicy) {f : Bytes} (h : f.length < 12) (w : Work) :
    parseFrame p f w = raise .truncated w := if_pos h

end Sys2Proof.Machine
end

