-- ==== Sys2Proof/Laws/PerInstr.lean ====
section
/-! SUPPORT. Statements made of every instruction as syntax, one lemma per constructor. The family OperandTypes: the
operands of an instruction have, in order, the types the table of spec/30_encoding.md R58 gives its row. -/

namespace Sys2Proof.Laws.OperandTypes

def Statement (i : Instr) : Prop := i.operands.map PortValue.portType = i.opcode.operandTypes

theorem crc32 (m : Bytes) : Statement (.crc32 m) := rfl
theorem tagFromBytes (b : Bytes4) : Statement (.tagFromBytes b) := rfl
theorem tagFromText (x : Text) : Statement (.tagFromText x) := rfl
theorem tagBytes (t : Bytes4) : Statement (.tagBytes t) := rfl
theorem tagIsCritical (t : Bytes4) : Statement (.tagIsCritical t) := rfl
theorem tagIsPublic (t : Bytes4) : Statement (.tagIsPublic t) := rfl
theorem tagIsReservedBitValid (t : Bytes4) : Statement (.tagIsReservedBitValid t) := rfl
theorem tagIsSafeToCopy (t : Bytes4) : Statement (.tagIsSafeToCopy t) := rfl
theorem tagIsValid (t : Bytes4) : Statement (.tagIsValid t) := rfl
theorem tagDisplay (t : Bytes4) : Statement (.tagDisplay t) := rfl
theorem chunkNew (t : Bytes4) (d : Bytes) : Statement (.chunkNew t d) := rfl
theorem chunkLength (c : Chunk) : Statement (.chunkLength c) := rfl
theorem chunkType (c : Chunk) : Statement (.chunkType c) := rfl
theorem chunkData (c : Chunk) : Statement (.chunkData c) := rfl
theorem chunkCrc (c : Chunk) : Statement (.chunkCrc c) := rfl
theorem chunkDataAsText (c : Chunk) : Statement (.chunkDataAsText c) := rfl
theorem chunkSerialize (c : Chunk) : Statement (.chunkSerialize c) := rfl
theorem chunkParse (f : Bytes) : Statement (.chunkParse f) := rfl

end Sys2Proof.Laws.OperandTypes
end

