-- ==== Sys2Proof/Laws/Utf8.lean ====
section
/-! SUPPORT. What one unit of a byte sequence decodes to, said once per row shape of spec/42_chunk.md R106, and the
characters as numbers. -/

namespace Sys2Proof

@[simp] theorem utf8Decode_nil : utf8Decode [] = some [] := rfl

/-- A first byte of no row. -/
theorem utf8Decode_none {b0 : Byte} (rest : Bytes) (h : utf8Row b0 = none) : utf8Decode (b0 :: rest) = none := by
  rw [utf8Decode.eq_def]; simp only [h]

/-- A unit of one byte. -/
theorem utf8Decode_one {b0 : Byte} (rest : Bytes) (h : utf8Row b0 = some .one) :
    utf8Decode (b0 :: rest) = (utf8Decode rest).map (b0.zeroExtend 21 :: ·) := by
  rw [utf8Decode.eq_def]; simp only [h]

/-- A unit of two bytes. -/
theorem utf8Decode_two {b0 : Byte} (b1 : Byte) (rest : Bytes) (h : utf8Row b0 = some .two) :
    utf8Decode (b0 :: b1 :: rest) =
      if inRange 0x80 0xBF b1 then (utf8Decode rest).map (utf8Char2 b0 b1 :: ·) else none := by
  rw [utf8Decode.eq_def]; simp only [h]

/-- A unit of three bytes. -/
theorem utf8Decode_three {b0 : Byte} {lo hi : Nat} (b1 b2 : Byte) (rest : Bytes)
    (h : utf8Row b0 = some (.three lo hi)) :
    utf8Decode (b0 :: b1 :: b2 :: rest) =
      if inRange lo hi b1 && inRange 0x80 0xBF b2 then (utf8Decode rest).map (utf8Char3 b0 b1 b2 :: ·) else none := by
  rw [utf8Decode.eq_def]; simp only [h]

/-- A unit of four bytes. -/
theorem utf8Decode_four {b0 : Byte} {lo hi : Nat} (b1 b2 b3 : Byte) (rest : Bytes)
    (h : utf8Row b0 = some (.four lo hi)) :
    utf8Decode (b0 :: b1 :: b2 :: b3 :: rest) =
      if inRange lo hi b1 && inRange 0x80 0xBF b2 && inRange 0x80 0xBF b3 then
        (utf8Decode rest).map (utf8Char4 b0 b1 b2 b3 :: ·)
      else none := by
  rw [utf8Decode.eq_def]; simp only [h]

/-- A unit that the end of the sequence cuts short. -/
theorem utf8Decode_short {b0 : Byte} {rest : Bytes}
    (h : (utf8Row b0 = some .two ∧ rest.length < 1) ∨ (∃ lo hi, utf8Row b0 = some (.three lo hi) ∧ rest.length < 2) ∨
      (∃ lo hi, utf8Row b0 = some (.four lo hi) ∧ rest.length < 3)) :
    utf8Decode (b0 :: rest) = none := by
  rw [utf8Decode.eq_def]
  rcases h with ⟨h, hl⟩ | ⟨lo, hi, h, hl⟩ | ⟨lo, hi, h, hl⟩ <;> simp only [h]
  · match rest with
    | [] => rfl
    | _ :: _ => simp at hl
  · match rest with
    | [] | [_] => rfl
    | _ :: _ :: _ => simp at hl
  · match rest with
    | [] | [_] | [_, _] => rfl
    | _ :: _ :: _ :: _ => simp only [List.length_cons] at hl; omega

/-- Where the rows of R106's table begin and end. -/
theorem utf8Row_one_iff {b : Byte} : utf8Row b = some .one ↔ b.toNat ≤ 0x7F := by
  simp only [utf8Row]; split_ifs <;> simp <;> omega

theorem utf8Row_two_iff {b : Byte} : utf8Row b = some .two ↔ 0xC2 ≤ b.toNat ∧ b.toNat ≤ 0xDF := by
  simp only [utf8Row]; split_ifs <;> simp <;> omega

theorem utf8Row_three {b : Byte} {lo hi : Nat} (h : utf8Row b = some (.three lo hi)) :
    0xE0 ≤ b.toNat ∧ b.toNat ≤ 0xEF ∧ lo = (if b.toNat = 0xE0 then 0xA0 else 0x80) ∧
      hi = (if b.toNat = 0xED then 0x9F else 0xBF) := by
  simp only [utf8Row] at h
  split_ifs at h <;> simp at h <;> obtain ⟨rfl, rfl⟩ := h <;> split_ifs <;> omega

theorem utf8Row_four {b : Byte} {lo hi : Nat} (h : utf8Row b = some (.four lo hi)) :
    0xF0 ≤ b.toNat ∧ b.toNat ≤ 0xF4 ∧ lo = (if b.toNat = 0xF0 then 0x90 else 0x80) ∧
      hi = (if b.toNat = 0xF4 then 0x8F else 0xBF) := by
  simp only [utf8Row] at h
  split_ifs at h <;> simp at h <;> obtain ⟨rfl, rfl⟩ := h <;> split_ifs <;> omega

/-- `b AND (2^k - 1)` as a number. -/
theorem maskedTo21_toNat {b mask : Byte} {k : Nat} (hk : mask.toNat = 2 ^ k - 1) :
    (maskedTo21 b mask).toNat = b.toNat % 2 ^ k := by
  have := b.isLt
  have h1 : b.toNat % 2 ^ k ≤ b.toNat := Nat.mod_le _ _
  simp only [maskedTo21, BitVec.truncate_eq_setWidth, BitVec.toNat_setWidth, BitVec.toNat_and, hk,
    Nat.and_two_pow_sub_one_eq_mod]
  exact Nat.mod_eq_of_lt (by omega)

/-- Joining a field above `k` free bits. -/
theorem shiftLeft_or_toNat {a x : CodePoint} {k : Nat} (hx : x.toNat < 2 ^ k) (ha : a.toNat * 2 ^ k < 2 ^ 21) :
    (a <<< k ||| x).toNat = a.toNat * 2 ^ k + x.toNat := by
  rw [BitVec.toNat_or, BitVec.toNat_shiftLeft, Nat.shiftLeft_eq, Nat.mod_eq_of_lt ha, ← Nat.shiftLeft_eq,
    Nat.shiftLeft_add_eq_or_of_lt hx]

theorem utf8Char2_toNat (b0 b1 : Byte) : (utf8Char2 b0 b1).toNat = b0.toNat % 32 * 64 + b1.toNat % 64 := by
  have h0 := maskedTo21_toNat (b := b0) (mask := 0x1F#8) (k := 5) rfl
  have h1 := maskedTo21_toNat (b := b1) (mask := 0x3F#8) (k := 6) rfl
  rw [utf8Char2, shiftLeft_or_toNat (by omega) (by omega), h0, h1]; omega

theorem utf8Char3_toNat (b0 b1 b2 : Byte) :
    (utf8Char3 b0 b1 b2).toNat = b0.toNat % 16 * 4096 + b1.toNat % 64 * 64 + b2.toNat % 64 := by
  have h0 := maskedTo21_toNat (b := b0) (mask := 0x0F#8) (k := 4) rfl
  have h1 := maskedTo21_toNat (b := b1) (mask := 0x3F#8) (k := 6) rfl
  have h2 := maskedTo21_toNat (b := b2) (mask := 0x3F#8) (k := 6) rfl
  have e1 := shiftLeft_or_toNat (a := maskedTo21 b1 0x3F#8) (x := maskedTo21 b2 0x3F#8) (k := 6) (by omega) (by omega)
  rw [utf8Char3, BitVec.or_assoc, shiftLeft_or_toNat (by omega) (by omega), e1, h0, h1, h2]; omega

theorem utf8Char4_toNat (b0 b1 b2 b3 : Byte) :
    (utf8Char4 b0 b1 b2 b3).toNat =
      b0.toNat % 8 * 262144 + b1.toNat % 64 * 4096 + b2.toNat % 64 * 64 + b3.toNat % 64 := by
  have h0 := maskedTo21_toNat (b := b0) (mask := 0x07#8) (k := 3) rfl
  have h1 := maskedTo21_toNat (b := b1) (mask := 0x3F#8) (k := 6) rfl
  have h2 := maskedTo21_toNat (b := b2) (mask := 0x3F#8) (k := 6) rfl
  have h3 := maskedTo21_toNat (b := b3) (mask := 0x3F#8) (k := 6) rfl
  have e1 := shiftLeft_or_toNat (a := maskedTo21 b2 0x3F#8) (x := maskedTo21 b3 0x3F#8) (k := 6) (by omega) (by omega)
  have e2 := shiftLeft_or_toNat (a := maskedTo21 b1 0x3F#8)
    (x := maskedTo21 b2 0x3F#8 <<< 6 ||| maskedTo21 b3 0x3F#8) (k := 12) (by omega) (by omega)
  rw [utf8Char4, BitVec.or_assoc, BitVec.or_assoc, shiftLeft_or_toNat (by omega) (by omega), e2, e1, h0, h1, h2, h3]
  omega

end Sys2Proof
end

