-- ==== Sys2Proof/Tests/Slice0.lean ====
section
/-! SUPPORT. Tests of the model on fixed values, and a witness for the hypotheses of every obligation that has hypotheses.
Expected results are from the spec: the vectors and worked examples of spec/95_test_vectors.md (their ids are named), the
examples in the rules, and the operation map of spec/30_encoding.md R58. -/

namespace Sys2Proof.Tests

open Sys2Proof.Machine

/-- An idle instance with the given parameters. -/
def instanceOf (n : BitVec 32) (p : LenPolicy) : State :=
  { State.reset with params := { maxPayload := n, lenPolicy := p } }

/-- A STRICT instance with room for 64 payload bytes. -/
def strict : State := instanceOf 64#32 .strict

/-- An INFER instance with room for 64 payload bytes. -/
def infer : State := instanceOf 64#32 .infer

/-- `tag("RuSt")` -/
def ruSt : Bytes4 := { b0 := 0x52#8, b1 := 0x75#8, b2 := 0x53#8, b3 := 0x74#8 }

/-- `tag("Rust")` -/
def rust : Bytes4 := { b0 := 0x52#8, b1 := 0x75#8, b2 := 0x73#8, b3 := 0x74#8 }

/-- Four bytes that are not a Tag: `52 75 31 74`. -/
def notTag : Bytes4 := { b0 := 0x52#8, b1 := 0x75#8, b2 := 0x31#8, b3 := 0x74#8 }

/-- `chunk(tag("RuSt"), ascii("Hi"))`, its checksum from the example of R105. -/
def hi : Chunk := { length := 2#32, type := ruSt, data := [0x48#8, 0x69#8], crc := 0x47381BD1#32 }

/-- `chunk(tag("RuSt"), [])`, its checksum from the example of R101. -/
def empty : Chunk := { length := 0#32, type := ruSt, data := [], crc := 0xD484093C#32 }

/-- The frame of `hi`, from the example of R108. -/
def hiFrame : Bytes :=
  [0x00#8, 0x00#8, 0x00#8, 0x02#8, 0x52#8, 0x75#8, 0x53#8, 0x74#8, 0x48#8, 0x69#8, 0x47#8, 0x38#8, 0x1B#8, 0xD1#8]

/-- The frame of `empty`, from the example of R108. -/
def emptyFrame : Bytes :=
  [0x00#8, 0x00#8, 0x00#8, 0x00#8, 0x52#8, 0x75#8, 0x53#8, 0x74#8, 0xD4#8, 0x84#8, 0x09#8, 0x3C#8]

/-- `hiFrame` with the length field 3 (the last example of R109). -/
def hiFrameLen3 : Bytes := hiFrame.set 3 0x03#8

/-- The payload of PME's fixture (R101), 42 bytes. -/
def fixturePayload : Bytes :=
  [0x54#8, 0x68#8, 0x69#8, 0x73#8, 0x20#8, 0x69#8, 0x73#8, 0x20#8, 0x77#8, 0x68#8, 0x65#8, 0x72#8, 0x65#8, 0x20#8,
   0x79#8, 0x6F#8, 0x75#8, 0x72#8, 0x20#8, 0x73#8, 0x65#8, 0x63#8, 0x72#8, 0x65#8, 0x74#8, 0x20#8, 0x6D#8, 0x65#8] ++
  [0x73#8, 0x73#8, 0x61#8, 0x67#8, 0x65#8, 0x20#8, 0x77#8, 0x69#8, 0x6C#8, 0x6C#8, 0x20#8, 0x62#8, 0x65#8, 0x21#8]

/-- What the host sees of an instruction on a STRICT instance. -/
def seen (i : Instr) : Visible := visible (exec i strict)

/-- The response `ok(v)`. -/
def ok (v : PortValue) : Visible := .answered (some (okResponse v))

/-- The response `err(E)`. -/
def err (e : Err) : Visible := .answered (some (errResponse e))

/- WellFormed refuses one ill-formed term for each of its checks, and takes the well-formed neighbour. -/

theorem test_wf_tag_with_digit :
    (Instr.tagBytes notTag).wf strict.params = false ∧ (Instr.tagBytes ruSt).wf strict.params = true := by decide
theorem test_wf_every_tag_operand :
    (Instr.tagIsCritical notTag).wf strict.params = false ∧ (Instr.tagIsPublic notTag).wf strict.params = false ∧
    (Instr.tagIsReservedBitValid notTag).wf strict.params = false ∧
    (Instr.tagIsSafeToCopy notTag).wf strict.params = false ∧ (Instr.tagIsValid notTag).wf strict.params = false ∧
    (Instr.tagDisplay notTag).wf strict.params = false ∧ (Instr.chunkNew notTag []).wf strict.params = false := by decide
theorem test_wf_text_with_surrogate :
    (Instr.tagFromText [0xD800#21]).wf strict.params = false ∧ (Instr.tagFromText [0xDFFF#21]).wf strict.params = false ∧
    (Instr.tagFromText [0x110000#21]).wf strict.params = false ∧
    (Instr.tagFromText [0xD7FF#21, 0xE000#21, 0x10FFFF#21]).wf strict.params = true := by decide
theorem test_wf_chunk_wrong_length : (Instr.chunkLength { hi with length := 3#32 }).wf strict.params = false := by
  decide +kernel
theorem test_wf_chunk_wrong_checksum : (Instr.chunkCrc { hi with crc := 0#32 }).wf strict.params = false := by
  decide +kernel
theorem test_wf_chunk_type_not_a_tag : (Instr.chunkType { hi with type := notTag }).wf strict.params = false := by
  decide +kernel
theorem test_wf_chunk_over_the_bound :
    (Instr.chunkData hi).wf (instanceOf 1#32 .strict).params = false ∧
    (Instr.chunkData hi).wf (instanceOf 2#32 .strict).params = true := by decide +kernel
theorem test_wf_every_chunk_operand :
    (Instr.chunkDataAsText { hi with length := 3#32 }).wf strict.params = false ∧
    (Instr.chunkSerialize { hi with length := 3#32 }).wf strict.params = false := by decide +kernel
theorem test_wf_new_over_the_bound :
    (Instr.chunkNew ruSt [0#8, 0#8]).wf (instanceOf 1#32 .strict).params = false ∧
    (Instr.chunkNew ruSt [0#8]).wf (instanceOf 1#32 .strict).params = true := by decide
theorem test_wf_parse_over_the_bound :
    (Instr.chunkParse (emptyFrame ++ [0#8])).wf (instanceOf 0#32 .strict).params = false ∧
    (Instr.chunkParse emptyFrame).wf (instanceOf 0#32 .strict).params = true := by decide
theorem test_wf_crc_over_the_bound :
    (Instr.crc32 [0#8, 0#8, 0#8, 0#8, 0#8]).wf (instanceOf 0#32 .strict).params = false ∧
    (Instr.crc32 [0#8, 0#8, 0#8, 0#8]).wf (instanceOf 0#32 .strict).params = true := by decide

/- Decoding: the opcode of every row of R58, written out by its fields ZERO, UNIT and FN (R53). -/

theorem test_decode_crc32 : decode { op := 0b00_00_0001#8, args := [.bytes [0x61#8]] } = .ok (.crc32 [0x61#8]) := rfl
theorem test_decode_tag_from_bytes :
    decode { op := 0b00_01_0000#8, args := [.bytes4 notTag] } = .ok (.tagFromBytes notTag) := rfl
theorem test_decode_tag_from_text :
    decode { op := 0b00_01_0001#8, args := [.text [0x52#21]] } = .ok (.tagFromText [0x52#21]) := rfl
theorem test_decode_tag_bytes : decode { op := 0b00_01_0010#8, args := [.tag ruSt] } = .ok (.tagBytes ruSt) := rfl
theorem test_decode_tag_is_critical :
    decode { op := 0b00_01_0011#8, args := [.tag ruSt] } = .ok (.tagIsCritical ruSt) := rfl
theorem test_decode_tag_is_public :
    decode { op := 0b00_01_0100#8, args := [.tag ruSt] } = .ok (.tagIsPublic ruSt) := rfl
theorem test_decode_tag_is_reserved_bit_valid :
    decode { op := 0b00_01_0101#8, args := [.tag ruSt] } = .ok (.tagIsReservedBitValid ruSt) := rfl
theorem test_decode_tag_is_safe_to_copy :
    decode { op := 0b00_01_0110#8, args := [.tag ruSt] } = .ok (.tagIsSafeToCopy ruSt) := rfl
theorem test_decode_tag_is_valid :
    decode { op := 0b00_01_0111#8, args := [.tag ruSt] } = .ok (.tagIsValid ruSt) := rfl
theorem test_decode_tag_display :
    decode { op := 0b00_01_1000#8, args := [.tag ruSt] } = .ok (.tagDisplay ruSt) := rfl
theorem test_decode_chunk_new :
    decode { op := 0b00_10_0000#8, args := [.tag ruSt, .bytes [0x48#8]] } = .ok (.chunkNew ruSt [0x48#8]) := rfl
theorem test_decode_chunk_length :
    decode { op := 0b00_10_0001#8, args := [.chunk hi] } = .ok (.chunkLength hi) := rfl
theorem test_decode_chunk_type : decode { op := 0b00_10_0010#8, args := [.chunk hi] } = .ok (.chunkType hi) := rfl
theorem test_decode_chunk_data : decode { op := 0b00_10_0011#8, args := [.chunk hi] } = .ok (.chunkData hi) := rfl
theorem test_decode_chunk_crc : decode { op := 0b00_10_0100#8, args := [.chunk hi] } = .ok (.chunkCrc hi) := rfl
theorem test_decode_chunk_data_as_text :
    decode { op := 0b00_10_0101#8, args := [.chunk hi] } = .ok (.chunkDataAsText hi) := rfl
theorem test_decode_chunk_serialize :
    decode { op := 0b00_10_0110#8, args := [.chunk hi] } = .ok (.chunkSerialize hi) := rfl
theorem test_decode_chunk_parse :
    decode { op := 0b00_10_0111#8, args := [.bytes hiFrame] } = .ok (.chunkParse hiFrame) := rfl

/-- The edges of the reserved ranges of R59, and the assigned opcodes beside them. -/
theorem test_reserved_edges :
    (∀ op ∈ [0x00#8, 0x02#8, 0x0F#8, 0x19#8, 0x1F#8, 0x28#8, 0x2F#8, 0x30#8, 0x3F#8, 0x40#8, 0x41#8, 0x80#8, 0xFF#8],
      opcodeOfByte op = none) ∧
    (∀ op ∈ [0x01#8, 0x10#8, 0x18#8, 0x20#8, 0x27#8], opcodeOfByte op ≠ none) := by decide

theorem test_decode_rejects_by_name :
    decode { op := 0x00#8, args := [] } = .error (.reservedOpcode 0x00#8) ∧
    decode { op := 0x20#8, args := [.tag ruSt] } = .error (.operandShape 0x20#8) ∧
    decode { op := 0x12#8, args := [.bytes4 ruSt] } = .error (.operandShape 0x12#8) := ⟨rfl, rfl, rfl⟩

/-- A word of the opcode table decodes, and is the very next thing that runs. -/
theorem test_table_word_decodes :
    decodeTableWord 8 0x27 = some (.chunkParse []) ∧ decodeTableWord 8 0x28 = none ∧ decodeTableWord 16 0x27 = none :=
  by decide
theorem test_table_word_runs_first :
    visible (step (State.reset.withFetchWord 8 0x01)) = ok (.u32 0#32) ∧
    visible (step (State.reset.withFetchWord 8 0x27)) = err .truncated ∧
    visible (step (State.reset.withFetchWord 8 0x12)) = .refused .notATag ∧
    visible (step (State.reset.withFetchWord 8 0x00)) = .refused (.reservedOpcode 0x00#8) := by decide

/- Results: the examples of the rules and the vectors of spec/95_test_vectors.md. -/

/-- R96: `"a"` and `"123456789"`. -/
theorem test_crc32_check_value :
    seen (.crc32 [0x31#8, 0x32#8, 0x33#8, 0x34#8, 0x35#8, 0x36#8, 0x37#8, 0x38#8, 0x39#8]) = ok (.u32 0xCBF43926#32) := by
  decide +kernel
/-- R94: the empty message, and R96: `00`, which has another checksum. -/
theorem test_crc32_empty_and_zero : seen (.crc32 []) = ok (.u32 0#32) ∧ seen (.crc32 [0x00#8]) = ok (.u32 0xD202EF8D#32) := by
  decide +kernel

/-- S5: a digit is rejected, S6: any case is taken, unmodified. -/
theorem test_tag_from_bytes :
    seen (.tagFromBytes notTag) = err .invalidTypeBytes ∧ seen (.tagFromBytes rust) = ok (.tag rust) := by decide
/-- The neighbours of the letter ranges (R70). -/
theorem test_tag_from_bytes_edges :
    seen (.tagFromBytes ⟨0x41#8, 0x5A#8, 0x61#8, 0x7A#8⟩) = ok (.tag ⟨0x41#8, 0x5A#8, 0x61#8, 0x7A#8⟩) ∧
    seen (.tagFromBytes ⟨0x40#8, 0x5A#8, 0x61#8, 0x7A#8⟩) = err .invalidTypeBytes ∧
    seen (.tagFromBytes ⟨0x41#8, 0x5A#8, 0x61#8, 0x7B#8⟩) = err .invalidTypeBytes := by decide

/-- S4, R72: `"Ru1t"`, `"Ru\u00e9t"` and `"RuSt"`. -/
theorem test_tag_from_text :
    seen (.tagFromText [0x52#21, 0x75#21, 0x31#21, 0x74#21]) = err .invalidCharacter ∧
    seen (.tagFromText [0x52#21, 0x75#21, 0xE9#21, 0x74#21]) = err .invalidCharacter ∧
    seen (.tagFromText [0x52#21, 0x75#21, 0x53#21, 0x74#21]) = ok (.tag ruSt) := by decide
/-- R127: a text of the wrong length with a non-letter. A character above 0xFF whose low byte is a letter is no letter. -/
theorem test_tag_from_text_priority :
    seen (.tagFromText [0x31#21, 0x75#21, 0x53#21]) = err .invalidLength ∧
    seen (.tagFromText [0x152#21, 0x75#21, 0x53#21, 0x74#21]) = err .invalidCharacter := by decide

theorem test_tag_bytes : seen (.tagBytes ruSt) = ok (.bytes4 ruSt) := by decide
/-- S2 and S3, and one Tag of the other case for each query (R74 to R77). -/
theorem test_tag_is_critical :
    seen (.tagIsCritical ruSt) = ok (.bit true) ∧ seen (.tagIsCritical { ruSt with b0 := 0x72#8 }) = ok (.bit false) := by
  decide
theorem test_tag_is_public :
    seen (.tagIsPublic ruSt) = ok (.bit false) ∧ seen (.tagIsPublic { ruSt with b1 := 0x55#8 }) = ok (.bit true) := by decide
theorem test_tag_is_reserved_bit_valid :
    seen (.tagIsReservedBitValid ruSt) = ok (.bit true) ∧ seen (.tagIsReservedBitValid rust) = ok (.bit false) := by decide
theorem test_tag_is_safe_to_copy :
    seen (.tagIsSafeToCopy ruSt) = ok (.bit true) ∧
    seen (.tagIsSafeToCopy { ruSt with b3 := 0x54#8 }) = ok (.bit false) := by decide
/-- R78: `"ruST"` is ancillary, private and not safe to copy, and valid. -/
theorem test_tag_is_valid :
    seen (.tagIsValid ⟨0x72#8, 0x75#8, 0x53#8, 0x54#8⟩) = ok (.bit true) ∧ seen (.tagIsValid rust) = ok (.bit false) := by
  decide
theorem test_tag_display : seen (.tagDisplay ruSt) = ok (.text [0x52#21, 0x75#21, 0x53#21, 0x74#21]) := by decide

/-- S8, R101: PME's fixture, length 42 and checksum 2882656334. -/
theorem test_chunk_new_fixture :
    seen (.chunkNew ruSt fixturePayload) =
      ok (.chunk { length := 42#32, type := ruSt, data := fixturePayload, crc := 2882656334#32 }) := by decide +kernel
theorem test_chunk_new_empty : seen (.chunkNew ruSt []) = ok (.chunk empty) := by decide +kernel
theorem test_chunk_length : seen (.chunkLength hi) = ok (.u32 2#32) := by decide +kernel
theorem test_chunk_type : seen (.chunkType hi) = ok (.tag ruSt) := by decide +kernel
theorem test_chunk_data : seen (.chunkData hi) = ok (.bytes [0x48#8, 0x69#8]) := by decide +kernel
theorem test_chunk_crc : seen (.chunkCrc hi) = ok (.u32 0x47381BD1#32) := by decide +kernel

/-- R107: `E2 82 AC` is U+20AC, and `C3 28` is no text. -/
theorem test_chunk_data_as_text :
    seen (.chunkDataAsText (chunkOf ruSt [0xE2#8, 0x82#8, 0xAC#8])) = ok (.text [0x20AC#21]) ∧
    seen (.chunkDataAsText (chunkOf ruSt [0xC3#8, 0x28#8])) = err .notUtf8 := by decide +kernel
/-- R106: the edges of the rows that exclude overlong forms, surrogates and values above 0x10FFFF. -/
theorem test_utf8_row_edges :
    utf8Decode [0xF4#8, 0x8F#8, 0xBF#8, 0xBF#8] = some [0x10FFFF#21] ∧ utf8Decode [0xF4#8, 0x90#8, 0x80#8, 0x80#8] = none ∧
    utf8Decode [0xED#8, 0x9F#8, 0xBF#8] = some [0xD7FF#21] ∧ utf8Decode [0xED#8, 0xA0#8, 0x80#8] = none ∧
    utf8Decode [0xE0#8, 0xA0#8, 0x80#8] = some [0x800#21] ∧ utf8Decode [0xE0#8, 0x9F#8, 0xBF#8] = none ∧
    utf8Decode [0xC1#8, 0xBF#8] = none ∧ utf8Decode [0xE2#8, 0x82#8] = none := by decide +kernel

theorem test_chunk_serialize : seen (.chunkSerialize hi) = ok (.bytes hiFrame) := by decide +kernel
theorem test_chunk_serialize_empty : seen (.chunkSerialize empty) = ok (.bytes emptyFrame) := by decide +kernel
/-- R109: the example frame, and its last bit flipped. -/
theorem test_chunk_parse :
    seen (.chunkParse hiFrame) = ok (.chunk hi) ∧ seen (.chunkParse (hiFrame.set 13 0xD0#8)) = err .checksumMismatch := by
  decide +kernel
/-- R109, R126: the length field 3 under the two policies; with a wrong length, a digit in the type and a wrong checksum
the first cause is reported; a short buffer is `Truncated` whatever it holds. -/
theorem test_chunk_parse_policy_and_priority :
    seen (.chunkParse hiFrameLen3) = err .invalidLength ∧
    visible (exec (.chunkParse hiFrameLen3) infer) = ok (.chunk hi) ∧
    seen (.chunkParse ((hiFrameLen3.set 6 0x31#8).set 13 0xD0#8)) = err .invalidLength ∧
    visible (exec (.chunkParse ((hiFrameLen3.set 6 0x31#8).set 13 0xD0#8)) infer) = err .invalidTypeBytes ∧
    seen (.chunkParse (hiFrameLen3.take 11)) = err .truncated := by decide +kernel

/- Witnesses: for the hypotheses of each obligation, concrete values that meet them, clause by clause. -/

/-- An answer that the host sees of a parse is an answer with the rest of the next state. -/
theorem parse_answers_of_seen {s : State} {f : Bytes} {r : Response}
    (h : visible (exec (.chunkParse f) s) = .answered (some r)) : Answers s (.chunkParse f) r := by
  have he : exec (.chunkParse f) s = withBound (frameFits s.params f) (parseFrame s.params.lenPolicy f) s := rfl
  obtain ⟨-, hb⟩ | ⟨-, hb⟩ := withBound_cases (frameFits s.params f) (parseFrame s.params.lenPolicy f) s <;>
    rw [he, hb] at h
  · unfold Answers
    rw [he, hb]
    generalize parseFrame s.params.lenPolicy f s.work.start = d at h ⊢
    cases d with
    | returned v w =>
      simp only [deliver, visible, State.answer_response, Visible.answered.injEq] at h
      exact ⟨_, rfl, h, rfl, rfl⟩
    | raised w =>
      simp only [deliver, visible, State.answer_response, Visible.answered.injEq] at h
      exact ⟨_, rfl, h, rfl, rfl⟩
    | aborted => cases h
  · cases h

theorem witness_ResetAbandonsTheRequestInFlight :
    (strict.withFetchWord 8 0x01).inFlight = some { op := 0x01#8, args := [.bytes []] } := rfl
theorem witness_OneRequestInFlight :
    State.reset.inFlight = none ∧ (State.reset.withFetchWord 8 0x11).inFlight = some { op := 0x11#8, args := [.text []] } :=
  ⟨rfl, rfl⟩
theorem witness_StepRunsTheDecodedRequest :
    (∃ s r i, State.inFlight s = some r ∧ decode r = .ok i) ∧
    (∃ s r, State.inFlight s = some r ∧ decode r = .error (.reservedOpcode 0xFF#8)) ∧
    (∃ s r, State.inFlight s = some r ∧ decode r = .error (.operandShape 0x01#8)) ∧ State.reset.inFlight = none :=
  ⟨⟨{ strict with inFlight := some (encode (.tagBytes ruSt)) }, _, _, rfl, rfl⟩,
   ⟨{ strict with inFlight := some { op := 0xFF#8, args := [] } }, _, rfl, rfl⟩,
   ⟨{ strict with inFlight := some { op := 0x01#8, args := [] } }, _, rfl, rfl⟩, rfl⟩
theorem witness_DecodeAndEncodeAgree :
    decode { op := 0x20#8, args := [.tag ruSt, .bytes []] } = .ok (.chunkNew ruSt []) := rfl
theorem witness_ReservedOpcodesAreRefused :
    ∃ s r, State.inFlight s = some r ∧ opcodeOfByte r.op = none :=
  ⟨{ strict with inFlight := some { op := 0x28#8, args := [.chunk hi] } }, _, rfl, rfl⟩
theorem witness_LettersAreTheTwoAsciiRanges :
    isLetter 0x41#8 = true ∧ isLetter 0x7A#8 = true ∧ (0x30 ≤ (0x39#8).toNat ∧ (0x39#8).toNat ≤ 0x39) ∧
    0x80 ≤ (0x80#8).toNat := by decide
theorem witness_ChangingCaseFlipsOneQuery : isTag ⟨0x41#8, 0x5A#8, 0x61#8, 0x7A#8⟩ = true := by decide
theorem witness_TagFromBytesAcceptsExactlyLetters :
    (isLetter 0x41#8 = true ∧ isLetter 0x5A#8 = true ∧ isLetter 0x61#8 = true ∧ isLetter 0x7A#8 = true) ∧
    isLetter 0x40#8 = false ∧ isLetter 0x5B#8 = false ∧ isLetter 0x60#8 = false ∧ isLetter 0x7B#8 = false := by decide
theorem witness_TagFromTextTestsLengthThenLetters :
    (isText [] = true ∧ ([] : Text).length ≠ 4) ∧
    (isText [0x52#21, 0x75#21, 0x10FFFF#21] = true ∧ [0x52#21, 0x75#21, 0x10FFFF#21].length ≠ 4) ∧
    (isText [0x52#21, 0x75#21, 0x5B#21, 0x74#21] = true ∧
      ∃ ch ∈ [0x52#21, 0x75#21, 0x5B#21, 0x74#21], isAsciiLetter ch = false) ∧
    (isText [0x41#21, 0x5A#21, 0x61#21, 0x7A#21] = true ∧
      ∀ ch ∈ [0x41#21, 0x5A#21, 0x61#21, 0x7A#21], isAsciiLetter ch = true) :=
  ⟨by decide, by decide, ⟨by decide, 0x5B#21, by simp, by decide⟩, by decide, by
    simp only [List.forall_mem_cons]; exact ⟨by decide, by decide, by decide, by decide, nofun⟩⟩
/-- Also the witness of TagQueriesReadOneCaseBit, TagIsValidIsReservedBitValid and TagDisplayShowsTheLetters. -/
theorem witness_TagBytesReturnsTheBytes : isTag rust = true := by decide
/-- The longest message an instance with MAX_PAYLOAD = 0 admits, and a Chunk of the largest payload. -/
theorem witness_Crc32AnswersTheChecksum :
    [0#8, 0#8, 0#8, 0#8].length ≤ (instanceOf 0#32 .strict).params.maxPayload.toNat + 4 ∧
    isChunk (instanceOf 2#32 .strict).params hi = true := by decide +kernel
theorem witness_CrcTableFormIsTheBitSerialForm : 255 < 256 := by decide
theorem witness_CrcDifferenceIsLinear : [0x61#8, 0x62#8].length = [0x00#8, 0xFF#8].length := rfl
theorem witness_CrcDetectsEverySingleByteChange : (0x00#8 : Byte) ≠ 0x80#8 := by decide
/-- Two messages that differ in the first and the last bit of an unaligned window of 32 bits. -/
theorem witness_CrcDetectsEveryBurstOf32Bits :
    [0x80#8, 0#8, 0#8, 0#8, 0x40#8].length = [0#8, 0#8, 0#8, 0#8, 0#8].length ∧
    [0x80#8, 0#8, 0#8, 0#8, 0x40#8] ≠ [0#8, 0#8, 0#8, 0#8, 0#8] ∧
    ∃ k, ∀ j, messageBit [0x80#8, 0#8, 0#8, 0#8, 0x40#8] j ≠ messageBit [0#8, 0#8, 0#8, 0#8, 0#8] j →
      k ≤ j ∧ j < k + 32 := by
  refine ⟨rfl, by decide, 7, fun j h => ?_⟩
  have small : ∀ j < 40, messageBit [0x80#8, 0#8, 0#8, 0#8, 0x40#8] j ≠ messageBit [0#8, 0#8, 0#8, 0#8, 0#8] j →
      7 ≤ j ∧ j < 7 + 32 := by decide
  by_cases hj : j < 40
  · exact small j hj h
  · refine absurd ?_ h
    rw [messageBit, messageBit, List.getD_eq_default _ _ (by simp; omega), List.getD_eq_default _ _ (by simp; omega)]
/-- The largest payload of an instance, and the empty one. -/
theorem witness_ChunkNewComputesLengthAndChecksum :
    isTag rust = true ∧ [0x48#8, 0x69#8].length ≤ (instanceOf 2#32 .strict).params.maxPayload.toNat ∧
    ([] : Bytes).length ≤ (instanceOf 0#32 .strict).params.maxPayload.toNat ∧ isTag notTag = false ∧
    (instanceOf 1#32 .strict).params.maxPayload.toNat < [0x48#8, 0x69#8].length := by decide
theorem witness_ChunkAccessorsReadTheFields :
    isChunk (instanceOf 2#32 .strict).params hi = true ∧ isChunk (instanceOf 0#32 .infer).params empty = true := by
  decide +kernel
theorem witness_ChunkDataAsTextDecodesThePayload :
    (isChunk strict.params hi = true ∧ utf8Decode hi.data = some [0x48#21, 0x69#21]) ∧
    (isChunk strict.params (chunkOf ruSt [0xC3#8, 0x28#8]) = true ∧ utf8Decode (chunkOf ruSt [0xC3#8, 0x28#8]).data = none) ∧
    (isChunk strict.params empty = true ∧ empty.data = []) := by decide +kernel
theorem witness_Utf8IsExactlyTheShortestForms : ∀ b ∈ [0x00#8, 0x7F#8], b.toNat < 0x80 := by decide
theorem witness_ChunkSerializeWritesTheWireLayout :
    isChunk strict.params hi = true ∧ isChunk strict.params empty = true ∧ frameBytes hi = frameBytes hi :=
  ⟨by decide +kernel, by decide +kernel, rfl⟩
theorem witness_ChunkParseFollowsItsSteps :
    (([] : Bytes).length < 12 ∧ (hiFrame.take 11).length < 12 ∧
      (hiFrame.take 11).length ≤ (instanceOf 0#32 .strict).params.maxPayload.toNat + 12) ∧
    (strict.params.lenPolicy = .strict ∧ (be32 ⟨0#8, 0#8, 0#8, 3#8⟩).toNat ≠ hi.data.length) ∧
    (infer.params.lenPolicy = .infer ∧ (be32 ⟨0#8, 0#8, 0#8, 2#8⟩).toNat = hi.data.length) ∧
    isTag notTag = false ∧
    (isTag ruSt = true ∧ crc32 (ruSt.toList ++ hi.data) ≠ be32 ⟨0x47#8, 0x38#8, 0x1B#8, 0xD0#8⟩) ∧
    crc32 (ruSt.toList ++ hi.data) = be32 ⟨0x47#8, 0x38#8, 0x1B#8, 0xD1#8⟩ ∧
    hi.data.length ≤ (instanceOf 2#32 .strict).params.maxPayload.toNat ∧ 12 ≤ emptyFrame.length := by decide +kernel
theorem witness_ParseAndSerializeAreInverse :
    (isTag rust = true ∧ hi.data.length ≤ (instanceOf 2#32 .strict).params.maxPayload.toNat) ∧
    (strict.params.lenPolicy = .strict ∧ Answers strict (.chunkParse hiFrame) (okResponse (.chunk hi))) ∧
    (infer.params.lenPolicy = .infer ∧ Answers infer (.chunkParse hiFrameLen3) (okResponse (.chunk hi))) :=
  ⟨by decide, ⟨rfl, parse_answers_of_seen (by decide +kernel)⟩, rfl, parse_answers_of_seen (by decide +kernel)⟩
/-- The first and last offset of each region of `hiFrame`, the kept and the lost letter, and bits 0 and 7. -/
theorem witness_OneFlippedBitIsDetected :
    isChunk strict.params hi = true ∧ isChunk infer.params hi = true ∧ 13 < 12 + hi.length.toNat ∧ 7 < 8 ∧
    isLetter ((flipBit (frameBytes hi) 4 7).getD 4 0#8) = false ∧
    isLetter ((flipBit (frameBytes hi) 4 0).getD 4 0#8) = true ∧
    isLetter ((flipBit (frameBytes hi) 7 6).getD 7 0#8) = false ∧
    isLetter ((flipBit (frameBytes hi) 7 5).getD 7 0#8) = true := by decide +kernel
theorem witness_WhichBuffersParse :
    (emptyFrame.length ≤ (instanceOf 0#32 .strict).params.maxPayload.toNat + 12 ∧ strict.params.lenPolicy = .strict ∧
      infer.params.lenPolicy = .infer ∧ infer.params.maxPayload = strict.params.maxPayload) ∧
    Answers strict (.chunkParse hiFrame) (okResponse (.chunk hi)) ∧
    (((12 ≤ hiFrame.length ∧ isTag (fieldAt hiFrame 4) = true ∧
        be32 (fieldAt hiFrame (hiFrame.length - 4)) = crc32 (slice hiFrame 4 (hiFrame.length - 4))) ∧
      (be32 (fieldAt hiFrame 0)).toNat = hiFrame.length - 12) ∧
      12 ≤ 12 ∧ 13 < hiFrame.length ∧ be32 (fieldAt hiFrame (12 - 4)) ≠ crc32 (slice hiFrame 4 (12 - 4)) ∧
      be32 (fieldAt hiFrame (13 - 4)) ≠ crc32 (slice hiFrame 4 (13 - 4))) :=
  ⟨by decide, parse_answers_of_seen (by decide +kernel), by decide +kernel⟩
/-- The third part is `wellFormedFrame hiFrame`. -/
theorem witness_WhichBuffersParse_wellFormed : wellFormedFrame hiFrame := witness_WhichBuffersParse.2.2.1
/-- Admitted requests that get each of the six errors. -/
theorem witness_EachErrorExactlyWhenItsCauseHolds :
    (Instr.tagFromBytes notTag).wf strict.params = true ∧
    (Instr.tagFromText [0x31#21, 0x31#21, 0x31#21, 0x31#21]).wf strict.params = true ∧
    (Instr.tagFromText []).wf strict.params = true ∧ (Instr.chunkParse []).wf strict.params = true ∧
    (Instr.chunkParse (hiFrame.set 4 0#8)).wf strict.params = true ∧ (Instr.chunkParse hiFrameLen3).wf strict.params = true ∧
    (Instr.chunkParse (hiFrame.set 13 0xD0#8)).wf strict.params = true ∧
    (Instr.chunkDataAsText (chunkOf ruSt [0x80#8])).wf strict.params = true := by decide +kernel
/-- Also the witness of ResultValueExactlyOnSuccess, CompletedOperationFrame, EveryOperationEstablishesTheInvariant: a
success and an error. -/
theorem witness_StatusStaysWithinTheColumn :
    (∃ t r, exec (.tagBytes ruSt) strict = .next t ∧ t.response = some r ∧ r.value.isSome = true) ∧
    (∃ t r, exec (.tagFromText []) strict = .next t ∧ t.response = some r ∧ r.value = none) ∧
    (∃ why, exec (.tagBytes notTag) strict = .refused why) :=
  ⟨⟨_, _, rfl, rfl, rfl⟩, ⟨_, _, rfl, rfl, rfl⟩, _, rfl⟩
theorem witness_IllTypedRequestsAreRefused :
    isTag notTag = false ∧
    ({ hi with length := 3#32 }).length.toNat ≠ hi.data.length ∧ 0x47381BD0#32 ≠ crc32 (hi.type.toList ++ hi.data) ∧
    (instanceOf 1#32 .strict).params.maxPayload.toNat < hi.data.length ∧
    (instanceOf 1#32 .strict).params.maxPayload.toNat + 12 < hiFrame.length ∧
    (instanceOf 0#32 .strict).params.maxPayload.toNat + 4 < [0#8, 0#8, 0#8, 0#8, 0#8].length ∧
    (0x10FFFF < (0x110000#21).toNat ∧ 0xD800 ≤ (0xD800#21).toNat ∧ (0xDFFF#21).toNat ≤ 0xDFFF) := by decide +kernel
theorem witness_ExactlyTheAdmittedRequestsAreAnswered :
    (Instr.tagBytes ruSt).wf strict.params = true ∧ (Instr.tagBytes notTag).wf strict.params = false := by decide
theorem witness_ParametersNeverChange :
    (∃ s t, step s = .next t ∧ State.inFlight s ≠ none) ∧ (∃ t, strict.issue (encode (.tagBytes ruSt)) = .next t) :=
  ⟨⟨{ strict with inFlight := some (encode (.tagBytes ruSt)) }, _, rfl, nofun⟩, _, rfl⟩
/-- Two instances with equal parameters, the same request in flight, and other working registers, response and count. -/
theorem witness_ResponseDependsOnRequestAndParameters :
    ∃ s s' : State, s.params = s'.params ∧ s.inFlight = some (encode (.crc32 [])) ∧
      s'.inFlight = some (encode (.crc32 [])) ∧ s.work.acc ≠ s'.work.acc ∧ s.response ≠ s'.response ∧
      s.freeCount ≠ s'.freeCount :=
  ⟨{ strict with inFlight := some (encode (.crc32 [])) },
   { strict with inFlight := some (encode (.crc32 [])), work := { Work.atReset with acc := 1#32 },
                 response := some (errResponse .notUtf8), freeCount := 5 },
   rfl, rfl, rfl, by decide, nofun, by decide⟩
theorem witness_EveryStepKeepsTheInvariant :
    ∃ s t : State, Inv s ∧ s.response ≠ none ∧ s.inFlight ≠ none ∧ step s = .next t :=
  ⟨{ strict with response := some (okResponse (.tag ruSt)), inFlight := some (encode (.tagFromBytes notTag)) }, _,
   fun _ h => by cases h; rfl, nofun, nofun, rfl⟩
/-- A program of a success and an error, each of them admitted, on an idle instance. -/
theorem witness_ProgramIsIndependentApplications :
    strict.inFlight = none ∧ ∀ r ∈ [encode (.tagBytes ruSt), encode (.tagFromBytes notTag)], Admitted strict.params r := by
  refine ⟨rfl, fun r hr => ?_⟩
  simp only [List.mem_cons, List.not_mem_nil, or_false] at hr
  obtain rfl | rfl := hr
  · exact ⟨_, rfl, by decide⟩
  · exact ⟨_, rfl, by decide⟩
theorem witness_AnErrorLeavesNothingBehind :
    strict.inFlight = none ∧
    ∃ t, exec (.chunkParse []) strict = .next t ∧ t.response = some (errResponse .truncated) :=
  ⟨rfl, _, rfl, rfl⟩

end Sys2Proof.Tests
end

section
/-! PROOFS. Big-endian words (spec/00_scope.md R6 item 4): the weighted sum that `be32` is, and the two inverses. -/

namespace Sys2Proof

/-- The weighted sum of four bytes fits 32 bits. -/
theorem be32_toNat (b : Bytes4) :
    (be32 b).toNat = b.b0.toNat * 2 ^ 24 + b.b1.toNat * 2 ^ 16 + b.b2.toNat * 2 ^ 8 + b.b3.toNat := by
  have h0 := b.b0.isLt
  have h1 := b.b1.isLt
  have h2 := b.b2.isLt
  have h3 := b.b3.isLt
  rw [be32, BitVec.toNat_ofNat]
  exact Nat.mod_eq_of_lt (by omega)

/-- The bytes of a word as the digits of its number in base 256. -/
theorem extractByte_toNat (v : U32) (i : Nat) : (v.extractLsb' i 8).toNat = v.toNat / 2 ^ i % 256 := by
  rw [BitVec.extractLsb'_toNat, Nat.shiftRight_eq_div_pow]

@[simp] theorem be32_toBe32 (v : U32) : be32 (toBe32 v) = v := by
  have := v.isLt
  apply BitVec.eq_of_toNat_eq
  simp only [be32_toNat, toBe32, extractByte_toNat]
  omega

@[simp] theorem toBe32_be32 (b : Bytes4) : toBe32 (be32 b) = b := by
  obtain ⟨b0, b1, b2, b3⟩ := b
  have h0 := b0.isLt
  have h1 := b1.isLt
  have h2 := b2.isLt
  have h3 := b3.isLt
  rw [toBe32, Bytes4.mk.injEq]
  refine ⟨?_, ?_, ?_, ?_⟩ <;> apply BitVec.eq_of_toNat_eq <;> simp only [extractByte_toNat, be32_toNat] <;> omega

/-- Settles O9: the weighted sum fits the word, and its digits in base 256 are the four bytes. -/
theorem bigEndianWordsRoundTrip : Obligations.BigEndianWordsRoundTrip :=
  ⟨be32_toBe32, toBe32_be32, be32_toNat⟩

end Sys2Proof
end

section
/-! PROOFS. What `exec` does, said once for all 18 operations: an admitted instruction delivers how its body ends, and any
other is refused by name. No admitted body aborts, so every completed operation answers. -/

namespace Sys2Proof

open Machine

/-- How an operation runs once its operands are admitted, from the working registers at its start. MAX_PAYLOAD decides
admission alone, so of the parameters only the policy is read here. -/
def Instr.body (p : LenPolicy) (w : Work) : Instr → Done
  | .crc32 m => crcMessage m w
  | .tagFromBytes b => tagOfBytes b w
  | .tagFromText x => tagOfText x w
  | .tagBytes t => .returned (.bytes4 t) { w with tagr := t }
  | .tagIsCritical t => .returned (.bit (isCritical t)) { w with tagr := t }
  | .tagIsPublic t => .returned (.bit (isPublic t)) { w with tagr := t }
  | .tagIsReservedBitValid t => .returned (.bit (isReservedBitValid t)) { w with tagr := t }
  | .tagIsSafeToCopy t => .returned (.bit (isSafeToCopy t)) { w with tagr := t }
  | .tagIsValid t => .returned (.bit (isValid t)) { w with tagr := t }
  | .tagDisplay t => .returned (.text (t.toList.map zext21)) { w with tagr := t }
  | .chunkNew t d => chunkOfPayload t d w
  | .chunkLength c => .returned (.u32 c.length) w
  | .chunkType c => .returned (.tag c.type) w
  | .chunkData c => .returned (.bytes c.data) w
  | .chunkCrc c => .returned (.u32 c.crc) w
  | .chunkDataAsText c => textOfPayload c.data w
  | .chunkSerialize c => frameOfChunk c w
  | .chunkParse f => parseFrame p f w

/-- The refusal of an instruction that is not admitted (spec/60_exceptions.md R134, log entry 17). TAG_FROM_BYTES admits
every operand, so its value here is never met. -/
def Instr.refusal : Instr → Refusal
  | .crc32 _ | .chunkParse _ => .oversize
  | .tagFromText _ => .notAText
  | .chunkNew t _ => if isTag t then .oversize else .notATag
  | .tagFromBytes _ | .tagBytes _ | .tagIsCritical _ | .tagIsPublic _ | .tagIsReservedBitValid _ | .tagIsSafeToCopy _
  | .tagIsValid _ | .tagDisplay _ => .notATag
  | .chunkLength _ | .chunkType _ | .chunkData _ | .chunkCrc _ | .chunkDataAsText _ | .chunkSerialize _ => .notAChunk

/-- Every operation is its admission, then its body. CHUNK_NEW alone has two tests; every other arm is this `if`. -/
theorem exec_eq (i : Instr) (s : State) :
    exec i s =
      if i.wf s.params then deliver (i.body s.params.lenPolicy s.work.start) s else .refused i.refusal := by
  cases i with
  | chunkNew t d =>
    cases ht : isTag t <;> simp [exec, execChunkNew, withBound, Instr.wf, Instr.body, Instr.refusal, ht]
  | _ => rfl

theorem exec_of_wf {i : Instr} {s : State} (h : i.wf s.params = true) :
    exec i s = deliver (i.body s.params.lenPolicy s.work.start) s := by
  rw [exec_eq, if_pos h]

theorem exec_of_not_wf {i : Instr} {s : State} (h : i.wf s.params = false) : exec i s = .refused i.refusal := by
  rw [exec_eq, h]; rfl

/-- The record invariants of a Chunk operand (spec/10_state.md R12). -/
theorem isChunk_iff {p : Params} {c : Chunk} :
    isChunk p c = true ↔
      isTag c.type = true ∧ c.length.toNat = c.data.length ∧ c.data.length ≤ p.maxPayload.toNat ∧
        c.crc = crc32 (c.type.toList ++ c.data) := by
  simp [isChunk, Chunk.lengthOk, Chunk.maxOk, Chunk.crcOk, and_assoc]

/-- Four bytes in a row are a `Bytes4`. -/
theorem exists_toList_eq {m : Bytes} (h : m.length = 4) : ∃ v : Bytes4, m = v.toList := by
  match m, h with
  | [b0, b1, b2, b3], _ => exact ⟨⟨b0, b1, b2, b3⟩, rfl⟩

/-- A buffer of at least 12 bytes splits into the four fields of a frame (spec/30_encoding.md R50). -/
theorem exists_frame_fields {f : Bytes} (h : 12 ≤ f.length) :
    ∃ (l t k : Bytes4) (d : Bytes), f = l.toList ++ t.toList ++ d ++ k.toList := by
  obtain ⟨l, hl⟩ := exists_toList_eq (m := f.take 4) (by simp; omega)
  obtain ⟨t, ht⟩ := exists_toList_eq (m := (f.drop 4).take 4) (by simp; omega)
  obtain ⟨k, hk⟩ := exists_toList_eq (m := ((f.drop 4).drop 4).drop (f.length - 12)) (by simp; omega)
  refine ⟨l, t, k, ((f.drop 4).drop 4).take (f.length - 12), ?_⟩
  rw [← hl, ← ht, ← hk]
  simp only [List.append_assoc, List.take_append_drop]

/-- The serialization of a record whose length field is right: the four writes fill the buffer. -/
theorem frameOfChunk_eq {c : Chunk} (h : c.length.toNat = c.data.length) (w : Work) :
    frameOfChunk c w = .returned (.bytes (frameBytes c)) { w with lenr := c.length } := by
  simp only [frameOfChunk, writeFrame_eq h (out := freshBuffer (12 + c.length.toNat)) (by simp [h]), frameBytes]

/-- Every read of the parse is in bounds: a buffer below 12 bytes raises before any, and any other has the four
fields. -/
theorem parseFrame_ne_aborted (p : LenPolicy) (f : Bytes) (w : Work) : parseFrame p f w ≠ .aborted := by
  rcases Nat.lt_or_ge f.length 12 with h | h
  · rw [parseFrame_short p h]; nofun
  · obtain ⟨l, t, k, d, rfl⟩ := exists_frame_fields h
    rw [parseFrame_eq, parseFields_eq, parseVerify_eq]
    split_ifs <;> nofun

/-- No admitted operation ends by the abort of spec/60_exceptions.md R136. -/
theorem Instr.body_ne_aborted {i : Instr} {p : Params} (h : i.wf p = true) (w : Work) :
    i.body p.lenPolicy w ≠ .aborted := by
  cases i with
  | tagFromBytes b => simp only [Instr.body, tagOfBytes]; split_ifs <;> nofun
  | tagFromText x =>
    simp only [Instr.body, tagOfText]
    split
    · split_ifs <;> nofun
    · nofun
  | chunkDataAsText c => simp only [Instr.body, textOfPayload]; split <;> nofun
  | chunkSerialize c =>
    obtain ⟨-, hlen, -, -⟩ := isChunk_iff.mp h
    rw [Instr.body, frameOfChunk_eq hlen]; nofun
  | chunkParse f => exact parseFrame_ne_aborted _ f w
  | _ => nofun

/-- An operation that does not abort answers. -/
theorem exists_deliver_eq_answer {d : Done} (h : d ≠ .aborted) (s : State) : ∃ r, deliver d s = .next (s.answer r) := by
  cases d with
  | returned v w => exact ⟨_, rfl⟩
  | raised w => exact ⟨_, rfl⟩
  | aborted => exact absurd rfl h

/-- What `exec` can do: answer an admitted instruction, or refuse one that is not. -/
theorem exec_cases (i : Instr) (s : State) :
    (i.wf s.params = true ∧ ∃ r, exec i s = .next (s.answer r)) ∨
    (i.wf s.params = false ∧ exec i s = .refused i.refusal) := by
  cases h : i.wf s.params with
  | true => exact .inl ⟨rfl, by rw [exec_of_wf h]; exact exists_deliver_eq_answer (Instr.body_ne_aborted h _) s⟩
  | false => exact .inr ⟨rfl, exec_of_not_wf h⟩

/-- A completed operation is the delivery of a response; the rest of its frame is what `State.answer` leaves. -/
theorem exec_next {i : Instr} {s t : State} (h : exec i s = .next t) : ∃ r, t = s.answer r := by
  obtain ⟨-, r, hr⟩ | ⟨-, hr⟩ := exec_cases i s
  · exact ⟨r, Host.Outcome.next.inj (h.symm.trans hr)⟩
  · rw [hr] at h; nomatch h

/-- The response of an instruction is determined by the state it runs in. -/
theorem answers_unique {s : State} {i : Instr} {r r' : Response} (h : Answers s i r) (h' : Answers s i r') : r' = r := by
  obtain ⟨t, he, hr, -, -⟩ := h
  obtain ⟨t', he', hr', -, -⟩ := h'
  obtain rfl := Host.Outcome.next.inj (he.symm.trans he')
  exact Option.some.inj (hr'.symm.trans hr)

/-- A step that answers leaves an idle CORE alone or answers the request in flight. -/
theorem step_next {s t : State} (h : step s = .next t) :
    (s.inFlight = none ∧ t = s) ∨
    ∃ r i, s.inFlight = some r ∧ decode r = .ok i ∧ exec i s = .next t := by
  cases hf : s.inFlight with
  | none =>
    simp only [step, hf, Host.Outcome.next.injEq] at h
    exact .inl ⟨rfl, h.symm⟩
  | some r =>
    rw [step_inFlight hf] at h
    cases hd : decode r with
    | ok i => rw [hd] at h; exact .inr ⟨r, i, rfl, hd, h⟩
    | error e => rw [hd] at h; nomatch h

/-- An accepted request is put in flight on an idle CORE, and the port is cleared. -/
theorem issue_next {s t : State} {r : Request} (h : s.issue r = .next t) :
    s.inFlight = none ∧ t = { s with inFlight := some r, response := none } := by
  cases hf : s.inFlight with
  | none =>
    simp only [State.issue, hf, Host.Outcome.next.injEq] at h
    exact ⟨rfl, h.symm⟩
  | some q => simp only [State.issue, hf] at h; nomatch h

/-- Settles O44: an admitted body never aborts, `exec` is a function, and what is not admitted is refused by name. -/
theorem exactlyTheAdmittedRequestsAreAnswered : Obligations.ExactlyTheAdmittedRequestsAreAnswered := by
  intro s i
  obtain ⟨hwf, r, hr⟩ | ⟨hwf, hr⟩ := exec_cases i s
  · have answered : Answers s i r := ⟨_, hr, rfl, rfl, rfl⟩
    exact ⟨fun _ => ⟨r, answered, fun _ => answers_unique answered⟩,
      fun hnot => absurd (hwf.symm.trans hnot) Bool.noConfusion⟩
  · exact ⟨fun hadm => absurd (hwf.symm.trans hadm) Bool.false_ne_true, fun _ => ⟨_, hr⟩⟩

/-- Settles O45: the only state a completed operation reaches is the delivery of a response. -/
theorem completedOperationFrame : Obligations.CompletedOperationFrame := by
  intro s t i h
  obtain ⟨r, rfl⟩ := exec_next h
  exact ⟨rfl, rfl, rfl, r, rfl⟩

/-- Settles O46: the four moves of the machine are the idle step, the delivery, the acceptance and the reset, and each
copies the parameters. -/
theorem parametersNeverChange : Obligations.ParametersNeverChange := by
  intro s t
  refine ⟨fun h => ?step, fun r h => ?issue, State.assertReset_params s⟩
  case step =>
    obtain ⟨-, rfl⟩ | ⟨_, _, -, -, he⟩ := step_next h
    · rfl
    · obtain ⟨r, rfl⟩ := exec_next he
      exact State.answer_params s r
  case issue =>
    obtain ⟨-, rfl⟩ := issue_next h
    rfl

end Sys2Proof
end

section
/-! PROOFS. The state of the CORE (spec/10_state.md): how many letters and Tags there are (R11), that a Chunk is its type
and data (R12), what a step and a transaction do, and that what the host sees is a function of the request and the
parameters (R10, R19). -/

namespace Sys2Proof

open Machine

/-- The bytes that are letters (spec/40_tag.md R70). -/
def letters : Finset Byte := Finset.univ.filter fun b => isLetter b = true

/-- 26 upper-case and 26 lower-case bytes, counted over all 256. -/
theorem card_letters : letters.card = 52 := by decide

/-- A Tag is a free choice of four letters. -/
theorem filter_isTag_eq_product :
    (Finset.univ.filter fun q : Byte × Byte × Byte × Byte => isTag ⟨q.1, q.2.1, q.2.2.1, q.2.2.2⟩ = true) =
      letters ×ˢ letters ×ˢ letters ×ˢ letters := by
  ext q
  simp [letters, isTag, and_assoc]

/-- Settles O11: the letters are counted, and the Tags are the fourfold product of the letters. -/
theorem thereAre52To4Tags : Obligations.ThereAre52To4Tags := by
  refine ⟨card_letters, ?_⟩
  rw [filter_isTag_eq_product]
  simp only [Finset.card_product, card_letters]

/-- A record is the Chunk of its type and data when the two computed fields are. -/
theorem eq_chunkOf_iff {c : Chunk} :
    c = chunkOf c.type c.data ↔
      c.length = BitVec.ofNat 32 c.data.length ∧ c.crc = crc32 (c.type.toList ++ c.data) := by
  cases c
  simp [chunkOf]

/-- Settles O29: MAX_PAYLOAD is below 2^32, so within it the length field is the byte count itself. -/
theorem chunkIsDeterminedByTypeAndData : Obligations.ChunkIsDeterminedByTypeAndData := by
  intro p c
  rw [isChunk_iff, eq_chunkOf_iff]
  constructor
  · rintro ⟨htag, hlen, hmax, hcrc⟩
    exact ⟨htag, hmax, (BitVec.toNat_eq_nat.mp hlen).2, hcrc⟩
  · rintro ⟨htag, hmax, hlen, hcrc⟩
    have hp := p.maxPayload.isLt
    exact ⟨htag, BitVec.toNat_eq_nat.mpr ⟨by omega, hlen⟩, hmax, hcrc⟩

/-- An idle CORE stays as it is. -/
theorem step_of_idle {s : State} (h : s.inFlight = none) : step s = .next s := by simp only [step, h]

/-- A request that decodes runs. -/
theorem step_of_decode_ok {s : State} {r : Request} {i : Instr} (h : s.inFlight = some r) (hd : decode r = .ok i) :
    step s = exec i s := by
  rw [step_inFlight h, hd]

/-- A request that does not decode is refused by the decoder's reason. -/
theorem step_of_decode_error {s : State} {r : Request} {e : Reject} (h : s.inFlight = some r)
    (hd : decode r = .error e) : step s = .refused (refusalOf e) := by
  rw [step_inFlight h, hd]

/-- Settles O4: one clause per outcome of the decoder, and the idle CORE. -/
theorem stepRunsTheDecodedRequest : Obligations.StepRunsTheDecodedRequest := fun _ =>
  ⟨fun _ _ => step_of_decode_ok, fun _ _ => step_of_decode_error, fun _ _ => step_of_decode_error, step_of_idle⟩

/-- Settles O48: no response is pending at reset. -/
theorem resetSatisfiesTheInvariant : Obligations.ResetSatisfiesTheInvariant := by
  intro r h
  have hnone : State.reset.response = none := rfl
  rw [hnone] at h
  nomatch h

/-- What the host sees of the end of an operation. -/
def Machine.Done.visible : Done → Visible
  | .returned v w => .answered (some { st := w.errr, value := some v })
  | .raised w => .answered (some { st := w.errr, value := none })
  | .aborted => .fault .internalInvariant

/-- The state an operation is delivered in does not show. -/
theorem visible_deliver (d : Done) (s : State) : visible (deliver d s) = d.visible := by
  cases d <;> rfl

@[simp] theorem visible_returned (v : PortValue) (w : Work) :
    (Done.returned v w).visible = .answered (some { st := w.errr, value := some v }) := rfl

@[simp] theorem visible_raise (e : Err) (w : Work) : (raise e w).visible = .answered (some (errResponse e)) := rfl

section
variable {w w' : Work} (h : w.errr = w'.errr)
include h

/-- The verification reads TAGR and CRCR, which the parse has written, and of the earlier registers ERRR alone. -/
theorem visible_parseVerify_congr (t k : Bytes4) (d : Bytes) :
    (parseVerify d { w with tagr := t, crcr := be32 k }).visible =
      (parseVerify d { w' with tagr := t, crcr := be32 k }).visible := by
  simp only [parseVerify_eq]
  split_ifs <;> simp [h]

/-- The parse writes every register it compares. -/
theorem visible_parseFrame_congr (p : LenPolicy) (f : Bytes) :
    (parseFrame p f w).visible = (parseFrame p f w').visible := by
  rcases Nat.lt_or_ge f.length 12 with hf | hf
  · simp only [parseFrame_short p hf, visible_raise]
  · obtain ⟨l, t, k, d, rfl⟩ := exists_frame_fields hf
    simp only [parseFrame_eq, parseFields_eq]
    split_ifs
    · simp only [visible_raise]
    · exact visible_parseVerify_congr (w := { w with lenr := be32 l }) (w' := { w' with lenr := be32 l }) h t k d
    · simp only [visible_raise]

/-- Of the working registers an operation starts with, only ERRR shows in its response. -/
theorem visible_body_congr (p : LenPolicy) (i : Instr) :
    (i.body p w).visible = (i.body p w').visible := by
  cases i with
  | crc32 m => simp [Instr.body, crcMessage, Work.crcOut, h]
  | tagFromBytes b => simp only [Instr.body, tagOfBytes]; split_ifs <;> simp [h]
  | tagFromText x =>
    simp only [Instr.body, tagOfText]
    split
    · split_ifs <;> simp [h]
    · simp
  | chunkNew t d => simp [Instr.body, chunkOfPayload, h]
  | chunkDataAsText c => simp only [Instr.body, textOfPayload]; split <;> simp [h]
  | chunkSerialize c => simp only [Instr.body, frameOfChunk]; split <;> simp [h]
  | chunkParse f => exact visible_parseFrame_congr h p f
  | _ => simp [Instr.body, h]

end

/-- What the host sees of an instruction depends on the parameters alone: every operation clears ERRR first (R14). -/
theorem visible_exec_congr (i : Instr) {s s' : State} (h : s.params = s'.params) :
    visible (exec i s) = visible (exec i s') := by
  rw [exec_eq, exec_eq, ← h]
  split_ifs
  · rw [visible_deliver, visible_deliver]
    exact visible_body_congr (by simp) _ i
  · rfl

/-- What the host sees of a step depends on the request in flight and the parameters alone. -/
theorem visible_step_congr {r : Request} {s s' : State} (h : s.params = s'.params) (hs : s.inFlight = some r)
    (hs' : s'.inFlight = some r) : visible (step s) = visible (step s') := by
  cases hd : decode r with
  | ok i =>
    rw [step_of_decode_ok hs hd, step_of_decode_ok hs' hd]
    exact visible_exec_congr i h
  | error e => rw [step_of_decode_error hs hd, step_of_decode_error hs' hd]

/-- Settles O47: no body reads a working register it has not written, but for ERRR, which is cleared at its start. -/
theorem responseDependsOnRequestAndParameters : Obligations.ResponseDependsOnRequestAndParameters :=
  ⟨fun i _ _ h => visible_exec_congr i h, fun _ _ _ h hs hs' => visible_step_congr h hs hs',
    fun i _ _ _ => visible_exec_congr i rfl⟩

/-- A transaction with an idle CORE is one step with the request in flight. -/
theorem transact_of_idle {s : State} (h : s.inFlight = none) (r : Request) :
    transact r s = step { s with inFlight := some r, response := none } := by
  simp only [transact, State.issue, h]

/-- What the host sees of a transaction with an idle CORE depends on the request and the parameters alone. -/
theorem visible_transact_congr {s s' : State} (hs : s.inFlight = none) (hs' : s'.inFlight = none)
    (h : s.params = s'.params) (r : Request) : visible (transact r s) = visible (transact r s') := by
  rw [transact_of_idle hs, transact_of_idle hs']
  exact visible_step_congr h rfl rfl

/-- An idle CORE answers an admitted request and is idle again. -/
theorem transact_of_admitted {s : State} {r : Request} (h : s.inFlight = none) (hr : Admitted s.params r) :
    ∃ t q, transact r s = .next t ∧ t.inFlight = none ∧ t.params = s.params ∧ t.response = some q := by
  obtain ⟨i, hd, hwf⟩ := hr
  rw [transact_of_idle h, step_of_decode_ok rfl hd]
  obtain ⟨-, q, hq⟩ | ⟨hnot, -⟩ := exec_cases i { s with inFlight := some r, response := none }
  · exact ⟨_, q, hq, rfl, rfl, rfl⟩
  · exact absurd (hwf.symm.trans hnot) Bool.noConfusion

/-- A program runs its first request, then the rest from the state that leaves. -/
theorem runProgram_cons {r : Request} {rest : List Request} {s t u : State} {rs : List Response}
    (hr : transact r s = .next t) (hrest : runProgram rest t = .next (u, rs)) :
    runProgram (r :: rest) s = .next (u, t.response.toList ++ rs) := by
  simp only [runProgram, hr, hrest]

/-- Settles O51, by induction on the program: each request finds the CORE idle with the parameters as they were, and that
is all its response depends on. -/
theorem programIsIndependentApplications : Obligations.ProgramIsIndependentApplications := by
  intro p
  induction p with
  | nil => exact fun s _ hs _ _ _ => ⟨s, [], rfl, hs, rfl, rfl⟩
  | cons r rest ih =>
    intro s s0 hs hs0 hparams hadm
    obtain ⟨hr, hrest⟩ := List.forall_mem_cons.mp hadm
    obtain ⟨t, q, htr, ht, htp, hq⟩ := transact_of_admitted hs hr
    obtain ⟨u, rs, hrun, hu, hup, hrs⟩ := ih t s0 ht hs0 (hparams.trans htp.symm) (by rwa [htp])
    have hseen : visible (transact r s0) = .answered (some q) := by
      rw [visible_transact_congr hs0 hs hparams, htr, visible, hq]
    refine ⟨u, q :: rs, ?_, hu, hup.trans htp, ?_⟩
    · rw [runProgram_cons htr hrun, hq]; rfl
    · rw [List.map_cons, List.map_cons, hrs, hseen]

end Sys2Proof
end

section
/-! PROOFS. Requests and their encoding (spec/30_encoding.md): decode and encode as inverses (R53, R58), the reserved
opcodes (R59), the codes of the errors (R56), and the case bits in the tag word (R52). -/

namespace Sys2Proof

open Machine

/-- The decoder reads the column `op` of the operation map. -/
@[simp] theorem opcodeOfByte_byte (o : Opcode) : opcodeOfByte o.byte = some o := by cases o <;> rfl

/-- Each of the 256 bytes that selects an operation is the one byte of its row. -/
theorem byte_of_opcodeOfByte : ∀ op : BitVec 8, ∀ o ∈ opcodeOfByte op, o.byte = op := by decide

@[simp] theorem decodeOperands_operands (i : Instr) : decodeOperands i.opcode i.operands = some i := by
  cases i <;> rfl

/-- Operands that decode are those of the instruction, which is of the row they were read for. -/
theorem eq_of_decodeOperands {o : Opcode} {args : List PortValue} {i : Instr} (h : decodeOperands o args = some i) :
    i.opcode = o ∧ i.operands = args := by
  unfold decodeOperands at h
  split at h <;> cases h <;> exact ⟨rfl, rfl⟩

/-- A request decodes by its opcode, then by its operands. -/
theorem decode_eq_ok_iff {r : Request} {i : Instr} :
    decode r = .ok i ↔ ∃ o, opcodeOfByte r.op = some o ∧ decodeOperands o r.args = some i := by
  cases ho : opcodeOfByte r.op with
  | none => simp [decode, ho]
  | some o => cases hi : decodeOperands o r.args <;> simp [decode, ho, hi]

theorem decode_of_reserved {r : Request} (h : opcodeOfByte r.op = none) : decode r = .error (.reservedOpcode r.op) := by
  simp only [decode, h]

theorem decode_encode (i : Instr) : decode (encode i) = .ok i :=
  decode_eq_ok_iff.mpr ⟨i.opcode, opcodeOfByte_byte _, decodeOperands_operands i⟩

/-- No instruction has a second spelling. -/
theorem encode_of_decode {r : Request} {i : Instr} (h : decode r = .ok i) : encode i = r := by
  obtain ⟨o, ho, hi⟩ := decode_eq_ok_iff.mp h
  obtain ⟨rfl, hargs⟩ := eq_of_decodeOperands hi
  rw [encode, byte_of_opcodeOfByte r.op _ ho, hargs]

/-- Settles O7: the opcode byte and the operands are each inverted, and a request is nothing more. -/
theorem decodeAndEncodeAgree : Obligations.DecodeAndEncodeAgree :=
  ⟨decode_encode, fun _ _ => encode_of_decode⟩

/-- Settles O5: the encoder, row by row. -/
theorem operationMapOpcodes : Obligations.OperationMapOpcodes := by
  unfold Obligations.OperationMapOpcodes
  simp only [encode, Instr.opcode, Opcode.byte, Instr.operands, implies_true, and_self]

/-- Settles O6: the bytes written by field are the opcodes of the five instructions, so each request is an encoding. -/
theorem sampleRequestsDecode : Obligations.SampleRequestsDecode :=
  ⟨decode_encode (.crc32 _), decode_encode (.tagFromBytes _), decode_encode (.tagIsSafeToCopy _),
    decode_encode (.chunkNew _ _), decode_encode (.chunkParse _)⟩

/-- The reserved ranges of R59, over all 256 bytes. -/
theorem opcodeOfByte_eq_none_iff : ∀ op : BitVec 8, opcodeOfByte op = none ↔
    op.toNat = 0x00 ∨ (0x02 ≤ op.toNat ∧ op.toNat ≤ 0x0F) ∨ (0x19 ≤ op.toNat ∧ op.toNat ≤ 0x1F) ∨
    (0x28 ≤ op.toNat ∧ op.toNat ≤ 0x2F) ∨ (0x30 ≤ op.toNat ∧ op.toNat ≤ 0x3F) ∨ 0x40 ≤ op.toNat := by decide

/-- The 256 bytes without the 18 assigned opcodes. -/
theorem card_reserved : (Finset.univ.filter fun op : BitVec 8 => opcodeOfByte op = none).card = 238 := by
  decide +kernel

/-- Settles O8: the decoder looks at the opcode before any operand. -/
theorem reservedOpcodesAreRefused : Obligations.ReservedOpcodesAreRefused :=
  ⟨opcodeOfByte_eq_none_iff, card_reserved, fun _ _ hr hop => step_of_decode_error hr (decode_of_reserved hop)⟩

/-- The case bit of a byte of a word is bit 5 of that byte's place. -/
theorem caseBit_extractByte (v : U32) (i : Nat) : caseBit (v.extractLsb' i 8) = v.getLsbD (i + 5) := by
  simp [caseBit]

/-- Settles O12: the bytes of a tag are the bytes of its word, at 24, 16, 8 and 0. -/
theorem caseBitsInTheTagWord : Obligations.CaseBitsInTheTagWord := by
  intro t
  obtain ⟨v, rfl⟩ : ∃ v, t = toBe32 v := ⟨be32 t, (toBe32_be32 t).symm⟩
  rw [be32_toBe32]
  simp [isCritical, isPublic, isReservedBitValid, isSafeToCopy, toBe32, caseBit_extractByte]

/-- Settles O38: the table of R120, row by row. -/
theorem errorCodesAndKinds : Obligations.ErrorCodesAndKinds :=
  ⟨⟨rfl, rfl⟩, ⟨rfl, rfl⟩, ⟨rfl, rfl⟩, ⟨rfl, rfl⟩, ⟨rfl, rfl⟩, ⟨rfl, rfl⟩⟩

end Sys2Proof
end

section
/-! PROOFS. The characters that `utf8_decode` yields are characters (spec/42_chunk.md R106, spec/00_scope.md R6 item 6): the
second-byte ranges of the table keep out surrogates and values above 0x10FFFF. -/

namespace Sys2Proof

theorem isScalar_iff {ch : CodePoint} :
    isScalar ch = true ↔ ch.toNat < 0xD800 ∨ (0xE000 ≤ ch.toNat ∧ ch.toNat ≤ 0x10FFFF) := by
  simp [isScalar]; omega

theorem isScalar_zext21 (b : Byte) : isScalar (zext21 b) = true := by
  have := b.isLt
  rw [isScalar_iff, zext21, BitVec.toNat_setWidth_of_le (by decide)]
  omega

theorem inRange_iff {lo hi : Nat} {b : Byte} : inRange lo hi b = true ↔ lo ≤ b.toNat ∧ b.toNat ≤ hi := by
  simp [inRange]

/-- Two bytes reach no surrogate. -/
theorem isScalar_utf8Char2 (b0 b1 : Byte) : isScalar (utf8Char2 b0 b1) = true := by
  rw [isScalar_iff, utf8Char2_toNat]; omega

/-- Below `E0` and above `EF` no first byte has three; after `ED` the second byte stops short of the surrogates. -/
theorem isScalar_utf8Char3 {b0 b1 : Byte} {lo hi : Nat} (b2 : Byte) (hrow : utf8Row b0 = some (.three lo hi))
    (h1 : inRange lo hi b1 = true) : isScalar (utf8Char3 b0 b1 b2) = true := by
  obtain ⟨h0lo, h0hi, rfl, rfl⟩ := utf8Row_three hrow
  rw [inRange_iff] at h1
  rw [isScalar_iff, utf8Char3_toNat]
  split_ifs at h1 <;> omega

/-- After `F0` the second byte starts past the surrogates; after `F4` it stops at 0x10FFFF. -/
theorem isScalar_utf8Char4 {b0 b1 : Byte} {lo hi : Nat} (b2 b3 : Byte) (hrow : utf8Row b0 = some (.four lo hi))
    (h1 : inRange lo hi b1 = true) : isScalar (utf8Char4 b0 b1 b2 b3) = true := by
  obtain ⟨h0lo, h0hi, rfl, rfl⟩ := utf8Row_four hrow
  rw [inRange_iff] at h1
  rw [isScalar_iff, utf8Char4_toNat]
  split_ifs at h1 <;> omega

@[simp] theorem isText_nil : isText [] = true := rfl

@[simp] theorem isText_cons (ch : CodePoint) (x : Text) : isText (ch :: x) = (isScalar ch && isText x) := rfl

/-- A unit that decodes to a character in front of a text gives a text. -/
theorem isText_of_map_cons {ch : CodePoint} {d : Option Text} {x : Text} (hch : isScalar ch = true)
    (hd : ∀ y, d = some y → isText y = true) (h : d.map (ch :: ·) = some x) : isText x = true := by
  obtain ⟨y, hy, rfl⟩ := Option.map_eq_some_iff.mp h
  rw [isText_cons, hch, hd y hy]; rfl

/-- What decodes is a text, by recursion over the units: cases 3, 4, 7 and 10 are the units of one to four bytes, and every
other case but the empty sequence is a failure. -/
theorem isText_of_utf8Decode {d : Bytes} {x : Text} (h : utf8Decode d = some x) : isText x = true := by
  fun_induction utf8Decode d generalizing x with
  | case1 => cases h; rfl
  | case3 b0 rest _ ih => exact isText_of_map_cons (isScalar_zext21 b0) (fun _ => ih) h
  | case4 b0 _ b1 rest _ ih => exact isText_of_map_cons (isScalar_utf8Char2 b0 b1) (fun _ => ih) h
  | case7 b0 lo hi hrow b1 b2 rest hin ih =>
    obtain ⟨h1, -⟩ := Bool.and_eq_true_iff.mp hin
    exact isText_of_map_cons (isScalar_utf8Char3 b2 hrow h1) (fun _ => ih) h
  | case10 b0 lo hi hrow b1 b2 b3 rest hin ih =>
    obtain ⟨h12, -⟩ := Bool.and_eq_true_iff.mp hin
    obtain ⟨h1, -⟩ := Bool.and_eq_true_iff.mp h12
    exact isText_of_map_cons (isScalar_utf8Char4 b2 b3 hrow h1) (fun _ => ih) h
  | _ => nomatch h

end Sys2Proof
end

section
/-! PROOFS. How an admitted operation ends, said once for all 18: it returns a well-formed value of its result type with
ERRR clear, or it raises an error of its column (spec/30_encoding.md R55, R58, R60). What a response may be, and the
invariant of the result port, follow. -/

namespace Sys2Proof

open Machine

/-- The six codes are 1 to 6 (spec/30_encoding.md R56). -/
theorem Machine.Err.code_bounds (e : Err) : 1 ≤ e.code.toNat ∧ e.code.toNat ≤ 6 := by cases e <;> decide

theorem Machine.Err.code_ne_zero (e : Err) : e.code ≠ 0#3 := by cases e <;> decide

theorem Machine.Err.code_ne_seven (e : Err) : e.code ≠ 7#3 := by cases e <;> decide

/-- The ends that the operation map leaves an instruction under the parameters `p`. -/
def Instr.EndsWith (p : Params) (i : Instr) : Done → Prop
  | .returned v w => w.errr = 0#3 ∧ v.portType = i.opcode.resultType ∧ portValueWf p v = true
  | .raised w => ∃ e ∈ raisable p.lenPolicy i, w.errr = e.code
  | .aborted => False

theorem Instr.endsWith_raise {p : Params} {i : Instr} {e : Err} (h : e ∈ raisable p.lenPolicy i) (w : Work) :
    i.EndsWith p (raise e w) := ⟨e, h, rfl⟩

/-- The unique Chunk of a Tag and a payload within the bound satisfies the record invariants (spec/10_state.md R12). -/
theorem isChunk_chunkOf {p : Params} {t : Bytes4} {d : Bytes} (ht : isTag t = true)
    (hd : d.length ≤ p.maxPayload.toNat) : isChunk p (chunkOf t d) = true :=
  (chunkIsDeterminedByTypeAndData p _).mpr ⟨ht, hd, rfl⟩

theorem frameBytes_length (c : Chunk) : (frameBytes c).length = c.data.length + 12 := by simp [frameBytes]; omega

/-- The frame of a payload within MAX_PAYLOAD is within the bound of CHUNK_PARSE (spec/60_exceptions.md R134). -/
theorem frameFits_frameBytes {p : Params} {c : Chunk} (h : c.data.length ≤ p.maxPayload.toNat) :
    frameFits p (frameBytes c) = true := by
  simp only [frameFits, frameBytes_length, decide_eq_true_eq]; omega

theorem isText_display (t : Bytes4) : isText (t.toList.map zext21) = true := by
  simp [Bytes4.toList, isScalar_zext21]

/-- The column of CHUNK_PARSE under either policy. -/
theorem mem_raisable_chunkParse {p : LenPolicy} {f : Bytes} {e : Err} :
    e ∈ raisable p (.chunkParse f) ↔
      e = .truncated ∨ (p = .strict ∧ e = .invalidLength) ∨ e = .invalidTypeBytes ∨ e = .checksumMismatch := by
  cases p <;> simp [raisable]

section
variable {p : Params} {w : Work} (hw : w.errr = 0#3)
include hw

/-- The byte constructor tests what makes its result a Tag. -/
theorem tagOfBytes_endsWith (b : Bytes4) : (Instr.tagFromBytes b).EndsWith p (tagOfBytes b w) := by
  simp only [tagOfBytes]
  split_ifs with ht
  · exact ⟨hw, rfl, ht⟩
  · exact Instr.endsWith_raise (by simp [raisable]) _

/-- Four ASCII letters have letters for their low bytes. -/
theorem tagOfText_endsWith (x : Text) : (Instr.tagFromText x).EndsWith p (tagOfText x w) := by
  simp only [tagOfText]
  split
  · split_ifs with hx
    · refine ⟨hw, rfl, ?_⟩
      simp only [isAsciiLetter, Bool.and_eq_true] at hx
      simp [portValueWf, isTag, lowByte, hx]
    · exact Instr.endsWith_raise (by simp [raisable]) _
  · exact Instr.endsWith_raise (by simp [raisable]) _

theorem textOfPayload_endsWith (c : Chunk) : (Instr.chunkDataAsText c).EndsWith p (textOfPayload c.data w) := by
  simp only [textOfPayload]
  split
  next x hx => exact ⟨hw, rfl, isText_of_utf8Decode hx⟩
  next => exact Instr.endsWith_raise (by simp [raisable]) _

/-- Each test of the parse raises an error of the column, and what passes them all is a Chunk within the bound. -/
theorem parseFrame_endsWith {f : Bytes} (hf : f.length ≤ p.maxPayload.toNat + 12) :
    (Instr.chunkParse f).EndsWith p (parseFrame p.lenPolicy f w) := by
  rcases Nat.lt_or_ge f.length 12 with h | h
  · rw [parseFrame_short _ h]
    exact Instr.endsWith_raise (mem_raisable_chunkParse.mpr (by simp)) _
  · obtain ⟨l, t, k, d, rfl⟩ := exists_frame_fields h
    rw [parseFrame_eq, parseFields_eq, parseVerify_eq]
    split_ifs with hlen ht hcrc
    · exact Instr.endsWith_raise (mem_raisable_chunkParse.mpr (by simp [hlen.1])) _
    · refine ⟨by simpa using hw, rfl, ?_⟩
      rw [buildChunk_chunk]
      exact isChunk_chunkOf ht (by simp at hf; omega)
    · exact Instr.endsWith_raise (mem_raisable_chunkParse.mpr (by simp)) _
    · exact Instr.endsWith_raise (mem_raisable_chunkParse.mpr (by simp)) _

/-- Every admitted operation ends as its row of the operation map says. -/
theorem Instr.body_endsWith {i : Instr} (h : i.wf p = true) : i.EndsWith p (i.body p.lenPolicy w) := by
  cases i with
  | crc32 m => exact ⟨by simpa using hw, rfl, rfl⟩
  | tagFromBytes b => exact tagOfBytes_endsWith hw b
  | tagFromText x => exact tagOfText_endsWith hw x
  | tagDisplay t => exact ⟨hw, rfl, isText_display t⟩
  | chunkNew t d =>
    obtain ⟨ht, hd⟩ := Bool.and_eq_true_iff.mp h
    refine ⟨by simpa using hw, rfl, ?_⟩
    rw [buildChunk_chunk]
    exact isChunk_chunkOf ht (of_decide_eq_true hd)
  | chunkType c =>
    obtain ⟨ht, -, -, -⟩ := isChunk_iff.mp h
    exact ⟨hw, rfl, ht⟩
  | chunkData c =>
    obtain ⟨-, -, hmax, -⟩ := isChunk_iff.mp h
    exact ⟨hw, rfl, decide_eq_true (by omega)⟩
  | chunkDataAsText c => exact textOfPayload_endsWith hw c
  | chunkSerialize c =>
    obtain ⟨-, hlen, hmax, -⟩ := isChunk_iff.mp h
    rw [Instr.body, frameOfChunk_eq hlen]
    exact ⟨hw, rfl, frameFits_frameBytes hmax⟩
  | chunkParse f => exact parseFrame_endsWith hw (of_decide_eq_true h)
  | _ => exact ⟨hw, rfl, rfl⟩

end

/-- The response of a completed operation: `ok` of a well-formed value of the result type, or `err` of an error of the
column. -/
theorem exec_response {i : Instr} {s t : State} {r : Response} (h : exec i s = .next t) (hr : t.response = some r) :
    (∃ v, r = okResponse v ∧ v.portType = i.opcode.resultType ∧ portValueWf s.params v = true) ∨
    ∃ e ∈ raisable s.params.lenPolicy i, r = errResponse e := by
  obtain ⟨hwf, -⟩ | ⟨-, href⟩ := exec_cases i s
  · have hend := Instr.body_endsWith (Work.start_errr s.work) hwf
    rw [exec_of_wf hwf] at h
    obtain ⟨v, w, hd, rfl⟩ | ⟨w, hd, rfl⟩ := deliver_next h <;> cases hr <;> rw [hd] at hend
    · obtain ⟨herrr, htype, hv⟩ := hend
      exact .inl ⟨v, by rw [okResponse, herrr], htype, hv⟩
    · obtain ⟨e, he, herrr⟩ := hend
      exact .inr ⟨e, he, by rw [errResponse, herrr]⟩
  · rw [href] at h; nomatch h

theorem responseWf_okResponse {p : Params} {v : PortValue} (h : portValueWf p v = true) :
    responseWf p (okResponse v) = true := by
  simp [responseWf, okResponse, h]

theorem responseWf_errResponse (p : Params) (e : Err) : responseWf p (errResponse e) = true := by
  simp [responseWf, errResponse, e.code_bounds]

/-- An operation that completes leaves a response of this hardware on the port, whatever stood there before. -/
theorem inv_of_exec {i : Instr} {s t : State} (h : exec i s = .next t) : Inv t := by
  intro r hr
  have hp : t.params = s.params := by obtain ⟨q, rfl⟩ := exec_next h; exact State.answer_params s q
  rw [hp]
  obtain ⟨v, rfl, -, hv⟩ | ⟨e, -, rfl⟩ := exec_response h hr
  · exact responseWf_okResponse hv
  · exact responseWf_errResponse s.params e

/-- Settles O49: an idle step changes nothing, and any other is a completed operation. -/
theorem everyStepKeepsTheInvariant : Obligations.EveryStepKeepsTheInvariant := by
  intro s t hs h
  obtain ⟨-, rfl⟩ | ⟨_, _, -, -, he⟩ := step_next h
  · exact hs
  · exact inv_of_exec he

/-- Settles O40: the status is 0 or the code of an error of the column, and no error has the code 7. -/
theorem statusStaysWithinTheColumn : Obligations.StatusStaysWithinTheColumn := by
  refine fun s i => ⟨fun t r h hr => ?_, fun why h => by rw [h]; rfl⟩
  obtain ⟨v, rfl, -, -⟩ | ⟨e, he, rfl⟩ := exec_response h hr
  · exact ⟨by simp [okResponse], .inl rfl⟩
  · exact ⟨e.code_ne_seven, .inr ⟨e, he, rfl⟩⟩

/-- Settles O41: `ok` has status 0 and a value of the result type, `err` has another status and none. -/
theorem resultValueExactlyOnSuccess : Obligations.ResultValueExactlyOnSuccess := by
  intro s t i r h hr
  obtain ⟨v, rfl, htype, -⟩ | ⟨e, -, rfl⟩ := exec_response h hr
  · exact ⟨by simp [okResponse], fun _ hv => Option.some.inj hv ▸ htype⟩
  · exact ⟨by simp [errResponse, e.code_ne_zero], nofun⟩

end Sys2Proof
end

section
/-! PROOFS. The TAG unit (spec/40_tag.md): the letter test and the case bit as arithmetic (R70), the four classifications
(R74 to R78, R80), what each TAG operation answers, and that no constructor breaks the invariant (R80 (c)). -/

namespace Sys2Proof

open Machine

/- Letters and case bits -/

theorem isLetter_iff {b : Byte} :
    isLetter b = true ↔ (0x41 ≤ b.toNat ∧ b.toNat ≤ 0x5A) ∨ (0x61 ≤ b.toNat ∧ b.toNat ≤ 0x7A) := by
  simp [isLetter]

theorem isLetter_eq_false_iff {b : Byte} :
    isLetter b = false ↔ ¬((0x41 ≤ b.toNat ∧ b.toNat ≤ 0x5A) ∨ (0x61 ≤ b.toNat ∧ b.toNat ≤ 0x7A)) := by
  rw [← isLetter_iff, Bool.not_eq_true]

/-- The letters of either case stand at 1 to 26 above a multiple of 32, in the quarter `01` of the bytes. -/
theorem isLetter_iff_bits {b : Byte} :
    isLetter b = true ↔
      b.extractLsb' 6 2 = 0b01#2 ∧ 1 ≤ (b.extractLsb' 0 5).toNat ∧ (b.extractLsb' 0 5).toNat ≤ 26 := by
  have := b.isLt
  rw [isLetter_iff, ← BitVec.toNat_inj]
  simp only [BitVec.extractLsb'_toNat, Nat.shiftRight_eq_div_pow, BitVec.toNat_ofNat]
  omega

theorem isAsciiLetter_iff {ch : CodePoint} :
    isAsciiLetter ch = true ↔ ch.toNat ≤ 0x7F ∧ isLetter (lowByte ch) = true := by
  simp [isAsciiLetter, lowByte]

theorem caseBit_eq_false_iff {b : Byte} : caseBit b = false ↔ b.toNat / 32 % 2 = 0 := by
  rw [caseBit, BitVec.getLsbD, Nat.testBit_eq_decide_div_mod_eq]
  simp

/-- Between the two ranges of letters lies a multiple of 32. -/
theorem caseBit_eq_false_iff_of_isLetter {b : Byte} (h : isLetter b = true) : caseBit b = false ↔ b.toNat ≤ 0x5A := by
  rw [isLetter_iff] at h
  rw [caseBit_eq_false_iff]
  omega

theorem caseBit_iff_and {b : Byte} : caseBit b = true ↔ b &&& 0x20#8 = 0x20#8 := by
  rw [show 0x20#8 = BitVec.twoPow 8 5 from rfl, BitVec.and_twoPow, caseBit]
  cases b.getLsbD 5 <;> decide

/-- Settles O10: the ranges, and each other clause read off them. -/
theorem lettersAreTheTwoAsciiRanges : Obligations.LettersAreTheTwoAsciiRanges := by
  refine ⟨fun _ => isLetter_iff, fun _ => isLetter_iff_bits, fun _ => isAsciiLetter_iff,
    fun _ => caseBit_eq_false_iff_of_isLetter, fun _ => caseBit_iff_and, by decide, fun b hdigit => ?_, fun b hhigh => ?_,
    by decide⟩
  · rw [isLetter_eq_false_iff]; omega
  · rw [isLetter_eq_false_iff]; omega

/- The classifications of a Tag -/

/-- Each letter of one case has its partner in the other, and no other byte has a letter for its partner. -/
@[simp] theorem isLetter_xor_caseBit : ∀ b : Byte, isLetter (b ^^^ 0x20#8) = isLetter b := by decide

@[simp] theorem caseBit_xor_caseBit (b : Byte) : caseBit (b ^^^ 0x20#8) = !caseBit b := by simp [caseBit]

theorem isTag_changeCase (t : Bytes4) (k : Fin 4) : isTag (changeCase t k) = isTag t := by
  fin_cases k <;> simp [changeCase, isTag]

/-- Settles O14: the changed byte stays a letter and only its case bit is inverted; each query reads one case bit. -/
theorem changingCaseFlipsOneQuery : Obligations.ChangingCaseFlipsOneQuery := by
  intro t k ht
  refine ⟨(isTag_changeCase t k).trans ht, ?_⟩
  fin_cases k <;> simp [changeCase, isCritical, isPublic, isReservedBitValid, isSafeToCopy, isValid]

/-- A letter whose case bit is the one given. -/
def letterOfCase (lower : Bool) : Byte := if lower then 0x61#8 else 0x41#8

@[simp] theorem isLetter_letterOfCase (lower : Bool) : isLetter (letterOfCase lower) = true := by
  cases lower <;> decide

@[simp] theorem caseBit_letterOfCase (lower : Bool) : caseBit (letterOfCase lower) = lower := by
  cases lower <;> decide

/-- Settles O13: a Tag with the letter of the wanted case at each place. -/
theorem classificationsAreIndependent : Obligations.ClassificationsAreIndependent := by
  intro a b c d
  refine ⟨⟨letterOfCase !a, letterOfCase !b, letterOfCase !c, letterOfCase d⟩, ?_⟩
  simp [isTag, isCritical, isPublic, isReservedBitValid, isSafeToCopy]

/- What the TAG operations answer -/

/-- A delivered response is what the host is answered. -/
theorem answers_of_exec {s : State} {i : Instr} {r : Response} (h : exec i s = .next (s.answer r)) : Answers s i r :=
  ⟨_, h, rfl, rfl, rfl⟩

/-- An admitted operation that returns a value, ERRR being clear, answers `ok` of it. -/
theorem answers_of_body_returned {s : State} {i : Instr} {v : PortValue} {w : Work} (hwf : i.wf s.params = true)
    (hbody : i.body s.params.lenPolicy s.work.start = .returned v w) (hw : w.errr = 0#3) :
    Answers s i (okResponse v) :=
  answers_of_exec (by rw [exec_of_wf hwf, hbody, deliver_returned, hw, okResponse])

/-- An admitted operation that raises an error answers it. -/
theorem answers_of_body_raise {s : State} {i : Instr} {e : Err} {w : Work} (hwf : i.wf s.params = true)
    (hbody : i.body s.params.lenPolicy s.work.start = raise e w) : Answers s i (errResponse e) :=
  answers_of_exec (by rw [exec_of_wf hwf, hbody, deliver_raise, errResponse])

theorem isTag_iff {t : Bytes4} :
    isTag t = true ↔ isLetter t.b0 = true ∧ isLetter t.b1 = true ∧ isLetter t.b2 = true ∧ isLetter t.b3 = true := by
  simp only [isTag, Bool.and_eq_true, and_assoc]

theorem isTag_eq_false_iff {t : Bytes4} :
    isTag t = false ↔
      isLetter t.b0 = false ∨ isLetter t.b1 = false ∨ isLetter t.b2 = false ∨ isLetter t.b3 = false := by
  simp only [isTag, Bool.and_eq_false_iff, or_assoc]

theorem answers_tagFromBytes_of_isTag (s : State) {b : Bytes4} (h : isTag b = true) :
    Answers s (.tagFromBytes b) (okResponse (.tag b)) :=
  answers_of_body_returned rfl (if_pos h) rfl

theorem answers_tagFromBytes_of_not_isTag (s : State) {b : Bytes4} (h : isTag b = false) :
    Answers s (.tagFromBytes b) (errResponse .invalidTypeBytes) :=
  answers_of_body_raise rfl (if_neg (by simp [h]))

/-- Settles O15: the constructor tests what makes four bytes a Tag. -/
theorem tagFromBytesAcceptsExactlyLetters : Obligations.TagFromBytesAcceptsExactlyLetters := fun s _ =>
  ⟨fun h => answers_tagFromBytes_of_isTag s (isTag_iff.mpr h),
    fun h => answers_tagFromBytes_of_not_isTag s (isTag_eq_false_iff.mpr h)⟩

theorem tagOfText_of_length_ne {x : Text} (h : x.length ≠ 4) (w : Work) : tagOfText x w = raise .invalidLength w := by
  unfold tagOfText
  split
  · exact absurd rfl h
  · rfl

theorem tagOfText_of_not_letter {x : Text} (hlen : x.length = 4) (h : ∃ ch ∈ x, isAsciiLetter ch = false) (w : Work) :
    tagOfText x w = raise .invalidCharacter w := by
  match x, hlen with
  | [c0, c1, c2, c3], _ =>
    refine if_neg fun hall => ?_
    simp only [Bool.and_eq_true] at hall
    simp [hall] at h

section
variable {c0 c1 c2 c3 : CodePoint} (h : ∀ ch ∈ [c0, c1, c2, c3], isAsciiLetter ch = true)
include h

theorem tagOfText_of_letters (w : Work) :
    tagOfText [c0, c1, c2, c3] w =
      .returned (.tag ⟨lowByte c0, lowByte c1, lowByte c2, lowByte c3⟩)
        { w with tagr := ⟨lowByte c0, lowByte c1, lowByte c2, lowByte c3⟩ } :=
  if_pos (by simpa [and_assoc] using h)

/-- The codes of four ASCII letters are letters. -/
theorem isTag_lowBytes : isTag ⟨lowByte c0, lowByte c1, lowByte c2, lowByte c3⟩ = true := by
  have hletter : ∀ ch ∈ [c0, c1, c2, c3], isLetter (lowByte ch) = true := fun ch hch =>
    (isAsciiLetter_iff.mp (h ch hch)).2
  simpa [isTag_iff] using hletter

theorem answers_tagFromText_of_letters (s : State) (hx : isText [c0, c1, c2, c3] = true) :
    Answers s (.tagFromText [c0, c1, c2, c3]) (okResponse (.tag ⟨lowByte c0, lowByte c1, lowByte c2, lowByte c3⟩)) :=
  answers_of_body_returned hx (tagOfText_of_letters h _) rfl

end

/-- Settles O16: a text has another length, or a non-letter, or is the four letters of a Tag. -/
theorem tagFromTextTestsLengthThenLetters : Obligations.TagFromTextTestsLengthThenLetters := by
  intro s x hx
  refine ⟨fun hlen => answers_of_body_raise hx (tagOfText_of_length_ne hlen _),
    fun hlen hch => answers_of_body_raise hx (tagOfText_of_not_letter hlen hch _), ?_⟩
  rintro c0 c1 c2 c3 rfl hletters
  exact ⟨answers_tagFromText_of_letters hletters s hx, answers_tagFromBytes_of_isTag s (isTag_lowBytes hletters)⟩

/-- Settles O17: TAGR holds the operand when it is returned. -/
theorem tagBytesReturnsTheBytes : Obligations.TagBytesReturnsTheBytes := fun s _ ht =>
  ⟨answers_of_body_returned ht rfl rfl, answers_tagFromBytes_of_isTag s ht⟩

/-- A query that is true on a clear case bit. -/
theorem not_caseBit_eq_decide (b : Byte) : (!caseBit b) = decide (b.getLsbD 5 = false) := (Bool.decide_eq_false ..).symm

/-- The query that is true on a set case bit. -/
theorem caseBit_eq_decide (b : Byte) : caseBit b = decide (b.getLsbD 5 = true) := (Bool.decide_eq_true ..).symm

/-- Settles O18: each query returns its predicate of TAGR, which is the case bit of one byte. -/
theorem tagQueriesReadOneCaseBit : Obligations.TagQueriesReadOneCaseBit := by
  intro s t ht
  simp only [← not_caseBit_eq_decide, ← caseBit_eq_decide]
  exact ⟨answers_of_body_returned ht rfl rfl, answers_of_body_returned ht rfl rfl,
    answers_of_body_returned ht rfl rfl, answers_of_body_returned ht rfl rfl⟩

theorem exec_tagIsValid_eq (t : Bytes4) (s : State) : exec (.tagIsValid t) s = exec (.tagIsReservedBitValid t) s := rfl

/-- Settles O19: the two queries are one function of the operand and the state. -/
theorem tagIsValidIsReservedBitValid : Obligations.TagIsValidIsReservedBitValid := by
  intro s t ht
  obtain ⟨-, -, hreserved, -⟩ := tagQueriesReadOneCaseBit s t ht
  have hsame : ∀ r, Answers s (.tagIsValid t) r ↔ Answers s (.tagIsReservedBitValid t) r := fun r => by
    rw [Answers, Answers, exec_tagIsValid_eq]
  exact ⟨(hsame _).mpr hreserved, hsame⟩

@[simp] theorem zext21_toNat (b : Byte) : (zext21 b).toNat = b.toNat := BitVec.toNat_setWidth_of_le (by decide)

/-- A byte becomes a character and comes back. -/
@[simp] theorem lowByte_zext21 (b : Byte) : lowByte (zext21 b) = b := by
  apply BitVec.eq_of_toNat_eq
  simpa [lowByte] using b.isLt

/-- The character of a letter is an ASCII letter. -/
theorem isAsciiLetter_zext21 {b : Byte} (h : isLetter b = true) : isAsciiLetter (zext21 b) = true := by
  rw [isAsciiLetter_iff, zext21_toNat, lowByte_zext21]
  exact ⟨by rw [isLetter_iff] at h; omega, h⟩

/-- The display of a Tag is four ASCII letters. -/
theorem isAsciiLetter_of_mem_display {t : Bytes4} (h : isTag t = true) :
    ∀ ch ∈ t.toList.map zext21, isAsciiLetter ch = true := by
  obtain ⟨h0, h1, h2, h3⟩ := isTag_iff.mp h
  simp [Bytes4.toList, isAsciiLetter_zext21, h0, h1, h2, h3]

/-- Settles O20: the display of a Tag is a text of four ASCII letters, whose codes are the bytes of the Tag. -/
theorem tagDisplayShowsTheLetters : Obligations.TagDisplayShowsTheLetters := by
  intro s t ht
  refine ⟨answers_of_body_returned ht rfl rfl, zext21_toNat, ?_⟩
  simpa using answers_tagFromText_of_letters (isAsciiLetter_of_mem_display ht) s (isText_display t)

/- The invariant -/

/-- Settles O50: a completed operation leaves a well-formed response on the port, and the invariant speaks of that
alone. -/
theorem everyOperationEstablishesTheInvariant : Obligations.EveryOperationEstablishesTheInvariant :=
  fun _ _ _ => inv_of_exec

end Sys2Proof
end

section
/-! PROOFS. The CRC unit (spec/41_crc32.md): the accumulator over a stream of single bits, which is R91 in the order of
R95 (c); the table form (R93); the linearity of the difference (R95 (b)); and the changes that a checksum detects
(R95 (d)). -/

namespace Sys2Proof

open Machine

/- The bit-serial accumulator -/

/-- The word that one message bit XORs into the accumulator. -/
def bitWord (bit : Bool) : U32 := (BitVec.ofBool bit).zeroExtend 32

/-- The accumulator after the first `n` bits of the stream `f`: each bit enters at bit 0, and one shift step follows. -/
def bitFold (acc : U32) (f : Nat → Bool) : Nat → U32
  | 0 => acc
  | n + 1 => shiftStep (bitFold acc f n ^^^ bitWord (f n))

/-- Only bit 0 decides whether the polynomial enters; the other bits of a word shift down. -/
theorem shiftStep_eq_xor_ushiftRight (v : U32) : shiftStep v = shiftStep (bitWord (v.getLsbD 0)) ^^^ (v >>> 1) := by
  cases h : v.getLsbD 0 with
  | false => rw [shiftStep, h]; simp [bitWord, shiftStep]
  | true => rw [shiftStep, h, BitVec.xor_comm]; simp [bitWord, shiftStep]

/-- Shifting a word that was XORed in whole is feeding its low bits one by one: the bits not yet fed are still there,
shifted down. -/
theorem shiftSteps_xor_eq_bitFold (acc e : U32) (n : Nat) :
    shiftSteps n (acc ^^^ e) = bitFold acc e.getLsbD n ^^^ (e >>> n) := by
  induction n with
  | zero => simp [shiftSteps, bitFold]
  | succ n ih =>
    have hbit : (e >>> n).getLsbD 0 = e.getLsbD n := by simp
    calc shiftSteps (n + 1) (acc ^^^ e)
        = shiftStep (bitFold acc e.getLsbD n ^^^ (e >>> n)) := by rw [shiftSteps_add, ih]; rfl
      _ = shiftStep (bitFold acc e.getLsbD n) ^^^ (shiftStep (bitWord (e.getLsbD n)) ^^^ (e >>> n >>> 1)) := by
          rw [shiftStep_xor, shiftStep_eq_xor_ushiftRight (e >>> n), hbit]
      _ = bitFold acc e.getLsbD (n + 1) ^^^ (e >>> (n + 1)) := by
          rw [bitFold, shiftStep_xor, BitVec.xor_assoc, BitVec.shiftRight_add]

theorem bitFold_congr {f g : Nat → Bool} {n : Nat} (acc : U32) (h : ∀ j < n, f j = g j) :
    bitFold acc f n = bitFold acc g n := by
  induction n with
  | zero => rfl
  | succ n ih => rw [bitFold, bitFold, ih fun j hj => h j (by omega), h n (by omega)]

theorem bitFold_add (acc : U32) (f : Nat → Bool) (m n : Nat) :
    bitFold acc f (m + n) = bitFold (bitFold acc f m) (fun j => f (m + j)) n := by
  induction n with
  | zero => rfl
  | succ n ih => rw [← Nat.add_assoc, bitFold, ih, bitFold]

/-- Once every bit of a word is fed, nothing of it is left outside the accumulator. -/
theorem bitFold_eq_shiftSteps {f : Nat → Bool} {n : Nat} {e : U32} (acc : U32) (hf : ∀ j < n, f j = e.getLsbD j)
    (he : e >>> n = 0#32) : bitFold acc f n = shiftSteps n (acc ^^^ e) := by
  rw [shiftSteps_xor_eq_bitFold, he, BitVec.xor_zero, bitFold_congr acc hf]

/-- Zero bits only shift. -/
theorem bitFold_of_false {f : Nat → Bool} {n : Nat} (acc : U32) (h : ∀ j < n, f j = false) :
    bitFold acc f n = shiftSteps n acc := by
  rw [bitFold_eq_shiftSteps (e := 0#32) acc (by simpa using h) (by simp), BitVec.xor_zero]

@[simp] theorem zext32_ushiftRight_8 (b : Byte) : b.zeroExtend 32 >>> 8 = 0#32 := by
  have hlt := b.isLt
  apply BitVec.eq_of_toNat_eq
  simp [Nat.shiftRight_eq_div_pow]
  omega

/-- The per-byte step feeds eight bits, least significant first (R92). -/
theorem bitFold_byte (acc : U32) (b : Byte) : bitFold acc b.getLsbD 8 = crcStep acc b :=
  bitFold_eq_shiftSteps acc (fun j hj => by simp; omega) (zext32_ushiftRight_8 b)

/- The bits of a message -/

theorem messageBit_cons_of_lt (b : Byte) (m : Bytes) {j : Nat} (h : j < 8) : messageBit (b :: m) j = b.getLsbD j := by
  simp [messageBit, Nat.div_eq_of_lt h, Nat.mod_eq_of_lt h]

@[simp] theorem messageBit_cons_add (b : Byte) (m : Bytes) (j : Nat) : messageBit (b :: m) (8 + j) = messageBit m j := by
  simp [messageBit, Nat.add_div_left, Nat.add_mod_left]

theorem messageBit_of_le {m : Bytes} {j : Nat} (h : 8 * m.length ≤ j) : messageBit m j = false := by
  have hlen : m.length ≤ j / 8 := by omega
  simp [messageBit, hlen]

/-- The fold over the bytes is the bit-serial accumulator over the bits of the message. -/
theorem crcFold_eq_bitFold (acc : U32) (m : Bytes) : crcFold acc m = bitFold acc (messageBit m) (8 * m.length) := by
  induction m generalizing acc with
  | nil => rfl
  | cons b m ih =>
    have hfirst : bitFold acc (messageBit (b :: m)) 8 = crcStep acc b := by
      rw [← bitFold_byte, bitFold_congr acc fun j => messageBit_cons_of_lt b m]
    rw [List.length_cons, Nat.mul_add, Nat.add_comm, bitFold_add, hfirst, crcFold_cons, ih]
    simp

/-- Messages of the same length with the same bits are equal. -/
theorem eq_of_messageBit_eq {a b : Bytes} (hlen : a.length = b.length) (h : ∀ j, messageBit a j = messageBit b j) :
    a = b := by
  induction a generalizing b with
  | nil => exact (List.length_eq_zero_iff.mp hlen.symm).symm
  | cons x a ih =>
    match b, hlen with
    | y :: b, hlen =>
      have hhead : x = y := BitVec.eq_of_getLsbD_eq fun j hj => by
        rw [← messageBit_cons_of_lt x a hj, h j, messageBit_cons_of_lt y b hj]
      have htail : a = b := ih (Nat.succ.inj hlen) fun j => by simpa using h (8 + j)
      rw [hhead, htail]

@[simp] theorem xorBytes_nil : xorBytes [] [] = [] := rfl
@[simp] theorem xorBytes_cons (x y : Byte) (a b : Bytes) :
    xorBytes (x :: a) (y :: b) = (x ^^^ y) :: xorBytes a b := rfl

theorem messageBit_xorBytes {a b : Bytes} (hlen : a.length = b.length) (j : Nat) :
    messageBit (xorBytes a b) j = (messageBit a j ^^ messageBit b j) := by
  have hbyte : (xorBytes a b).getD (j / 8) 0#8 = a.getD (j / 8) 0#8 ^^^ b.getD (j / 8) 0#8 := by
    rcases Nat.lt_or_ge (j / 8) a.length with h | h
    · simp [xorBytes, h, hlen ▸ h]
    · simp [xorBytes, h, hlen ▸ h]
  rw [messageBit, hbyte, BitVec.getLsbD_xor, messageBit, messageBit]

/- The difference of two checksums -/

theorem crcFold_xorBytes {a b : Bytes} (hlen : a.length = b.length) (x y : U32) :
    crcFold (x ^^^ y) (xorBytes a b) = crcFold x a ^^^ crcFold y b := by
  induction a generalizing b x y with
  | nil =>
    obtain rfl := List.length_eq_zero_iff.mp hlen.symm
    rfl
  | cons p a ih =>
    match b, hlen with
    | q :: b, hlen => rw [xorBytes_cons, crcFold_cons, crcStep_xor, ih (Nat.succ.inj hlen)]; rfl

/-- Settles O25: every byte step is linear, and the two initial values and the two final XORs cancel. -/
theorem crcDifferenceIsLinear : Obligations.CrcDifferenceIsLinear := by
  intro a b hlen
  calc crc32 a ^^^ crc32 b
      = crcFold crcInit a ^^^ crcFold crcInit b ^^^ (crcXorOut ^^^ crcXorOut) := by simp only [crc32]; ac_rfl
    _ = crcFold (crcInit ^^^ crcInit) (xorBytes a b) := by
        rw [BitVec.xor_self, BitVec.xor_zero, crcFold_xorBytes hlen]
    _ = crcRaw (xorBytes a b) := by rw [BitVec.xor_self, crcRaw]

theorem crc32_eq_iff_crcRaw {a b : Bytes} (hlen : a.length = b.length) :
    crc32 a = crc32 b ↔ crcRaw (xorBytes a b) = 0#32 := by
  rw [← crcDifferenceIsLinear a b hlen, BitVec.xor_eq_zero_iff]

/- The detected changes -/

theorem shiftSteps_eq_zero_iff {n : Nat} {v : U32} : shiftSteps n v = 0#32 ↔ v = 0#32 := by
  have hzero : shiftSteps n 0#32 = 0#32 := by simpa using shiftSteps_xor n 0#32 0#32
  exact ⟨fun h => shiftSteps_injective n (h.trans hzero.symm), fun h => h ▸ hzero⟩

/-- The 32 bits of a stream from bit `k` on, as one word. -/
def windowWord (f : Nat → Bool) (k : Nat) : U32 := BitVec.ofFnLE fun i : Fin 32 => f (k + i)

theorem getLsbD_windowWord (f : Nat → Bool) (k : Nat) {i : Nat} (h : i < 32) : (windowWord f k).getLsbD i = f (k + i) := by
  simp [windowWord, h]

/-- A window fed to an accumulator that is zero is its word, shifted 32 times. -/
theorem bitFold_window (f : Nat → Bool) (k : Nat) :
    bitFold 0#32 (fun j => f (k + j)) 32 = shiftSteps 32 (windowWord f k) := by
  rw [bitFold_eq_shiftSteps 0#32 (fun _ hj => (getLsbD_windowWord f k hj).symm)
    (BitVec.ushiftRight_eq_zero (Nat.le_refl 32)), BitVec.zero_xor]

/-- A stream whose set bits lie in a window of 32 leaves the accumulator zero only when it has none: the zeros before the
window keep the accumulator zero, the window is a word shifted 32 times, the zeros after it only shift, and a shift takes
only zero to zero. -/
theorem eq_false_of_bitFold_window {f : Nat → Bool} {k n : Nat} (hwindow : ∀ j, f j = true → k ≤ j ∧ j < k + 32)
    (hzero : bitFold 0#32 f (k + 32 + n) = 0#32) (j : Nat) : f j = false := by
  have houtside (i : Nat) (hi : ¬(k ≤ i ∧ i < k + 32)) : f i = false := Bool.eq_false_iff.mpr (mt (hwindow i) hi)
  have hbefore : bitFold 0#32 f k = 0#32 := by
    rw [bitFold_of_false _ fun i hi => houtside i (by omega), shiftSteps_eq_zero_iff]
  have hafter : bitFold 0#32 f (k + 32) = 0#32 := by
    rwa [bitFold_add, bitFold_of_false _ fun i _ => houtside _ (by omega), shiftSteps_eq_zero_iff] at hzero
  have hword : windowWord f k = 0#32 := by
    rwa [bitFold_add, hbefore, bitFold_window, shiftSteps_eq_zero_iff] at hafter
  by_cases hj : k ≤ j ∧ j < k + 32
  · obtain ⟨i, rfl⟩ := Nat.exists_eq_add_of_le hj.left
    rw [← getLsbD_windowWord f k (by omega), hword, BitVec.getLsbD_zero]
  · exact houtside j hj

/-- The raw checksum of a difference inside a window of 32 bits is zero only for no difference (R95 (d)). The accumulator
is followed to a count past the message and past the window, over the zeros that `messageBit` reads there. -/
theorem messageBit_eq_false_of_crcRaw {d : Bytes} {k : Nat} (hwindow : ∀ j, messageBit d j = true → k ≤ j ∧ j < k + 32)
    (hzero : crcRaw d = 0#32) (j : Nat) : messageBit d j = false := by
  refine eq_false_of_bitFold_window (n := 8 * d.length) hwindow ?_ j
  rw [Nat.add_comm, bitFold_add, ← crcFold_eq_bitFold, bitFold_of_false _ fun i _ => messageBit_of_le (by omega),
    shiftSteps_eq_zero_iff]
  exact hzero

/-- Settles O27: equal checksums have the raw checksum of the difference zero, so no bit differs. -/
theorem crcDetectsEveryBurstOf32Bits : Obligations.CrcDetectsEveryBurstOf32Bits := by
  rintro a b hlen hne ⟨k, hwindow⟩ heq
  refine hne (eq_of_messageBit_eq hlen fun j => ?_)
  have hdiff : messageBit (xorBytes a b) j = false :=
    messageBit_eq_false_of_crcRaw (k := k) (fun i hi => hwindow i (by simpa [messageBit_xorBytes hlen] using hi))
      ((crc32_eq_iff_crcRaw hlen).mp heq) j
  simpa [messageBit_xorBytes hlen] using hdiff

/-- The per-byte step is injective in the byte. -/
theorem crcStep_injective_byte (acc : U32) : Function.Injective (crcStep acc) := by
  intro x y h
  have hzext : x.zeroExtend 32 = y.zeroExtend 32 := by simpa using shiftSteps_injective 8 h
  simpa using congrArg (BitVec.setWidth 8) hzext

/-- Settles O26: after the common start the different bytes part the accumulators, and the common rest keeps them
apart. -/
theorem crcDetectsEverySingleByteChange : Obligations.CrcDetectsEverySingleByteChange := by
  intro a b x y hne heq
  have hfold : crcFold crcInit (a ++ x :: b) = crcFold crcInit (a ++ y :: b) := by simpa [crc32] using heq
  rw [crcFold_append, crcFold_append, crcFold_cons, crcFold_cons] at hfold
  exact hne (crcStep_injective_byte _ (crcFold_injective_acc b hfold))

/- The table form -/

/-- The printed table, row by row, is the 256 values of `shift8`. -/
theorem crcTable_eq_map : crcTable = (List.range 256).map fun k => shift8 (BitVec.ofNat 32 k) := by decide +kernel

theorem crcTable_getD {k : Nat} (h : k < 256) : crcTable.getD k 0#32 = shift8 (BitVec.ofNat 32 k) := by
  simp [crcTable_eq_map, h]

/-- Eight steps read the low byte of a word and shift down the rest. -/
theorem shift8_eq_xor_ushiftRight (v : U32) : shift8 v = shift8 (v &&& 0xFF#32) ^^^ (v >>> 8) := by
  have hbits : ∀ j < 8, v.getLsbD j = (v &&& 0xFF#32).getLsbD j := by
    intro j hj
    have hmask : ∀ i < 8, (0xFF#32).getLsbD i = true := by decide
    rw [BitVec.getLsbD_and, hmask j hj, Bool.and_true]
  have hrest : (v &&& 0xFF#32) >>> 8 = 0#32 := by
    rw [BitVec.ushiftRight_and_distrib, show 0xFF#32 >>> 8 = 0#32 from rfl, BitVec.and_zero]
  calc shift8 v
      = bitFold 0#32 v.getLsbD 8 ^^^ (v >>> 8) := by rw [← shiftSteps_xor_eq_bitFold, BitVec.zero_xor, shift8]
    _ = shift8 (v &&& 0xFF#32) ^^^ (v >>> 8) := by
        rw [bitFold_eq_shiftSteps 0#32 hbits hrest, BitVec.zero_xor, shift8]

/-- The table form is the per-byte step. -/
theorem crcStepTable_eq_crcStep (acc : U32) (b : Byte) : crcStepTable acc b = crcStep acc b := by
  have hindex (v : U32) : (v &&& 0xFF#32).toNat < 256 := by
    rw [BitVec.toNat_and]
    exact Nat.lt_succ_of_le Nat.and_le_right
  rw [crcStepTable, crcTable_getD (hindex _), BitVec.ofNat_toNat, BitVec.setWidth_eq, crcStep,
    shift8_eq_xor_ushiftRight (acc ^^^ b.zeroExtend 32), BitVec.ushiftRight_xor_distrib, zext32_ushiftRight_8,
    BitVec.xor_zero]

/-- Settles O24: the printed values, and the table form by the split of a word at its low byte. -/
theorem crcTableFormIsTheBitSerialForm : Obligations.CrcTableFormIsTheBitSerialForm :=
  ⟨by simp [crcTable_eq_map], fun _ => crcTable_getD, crcStepTable_eq_crcStep⟩

/- What the CRC operations answer -/

theorem answers_crc32 {s : State} {m : Bytes} (h : m.length ≤ s.params.maxPayload.toNat + 4) :
    Answers s (.crc32 m) (okResponse (.u32 (crc32 m))) :=
  answers_of_body_returned (i := .crc32 m) (decide_eq_true h)
    (by rw [Instr.body, crcMessage, Work.crcOut, Work.crcWalk_acc, Work.initAcc_acc, crc32]) (by simp)

/-- Settles O22: ACC ends the walk holding the fold from the initial value; a Chunk's type and data are four bytes and a
payload within the bound, and its stored checksum is theirs. -/
theorem crc32AnswersTheChecksum : Obligations.Crc32AnswersTheChecksum := by
  refine ⟨fun s m => answers_crc32, fun s c hc => ?_⟩
  obtain ⟨-, -, hmax, hcrc⟩ := isChunk_iff.mp hc
  refine ⟨?_, answers_of_body_returned hc rfl rfl⟩
  rw [hcrc]
  exact answers_crc32 (by rw [List.length_append, Bytes4.toList_length]; omega)

/-- Settles O21: the constants bit by bit, and the check value of the ASCII digits. -/
theorem crcParameters : Obligations.CrcParameters := by
  refine ⟨by decide, rfl, rfl, by decide +kernel⟩

/-- Settles O23: the first two clauses are the definitions of the step and of the fold; ACC streams over the split of
the message because the fold does. -/
theorem crcStreamsByteByByte : Obligations.CrcStreamsByteByByte := by
  refine ⟨fun _ _ => rfl, fun _ => rfl, fun w a b => ⟨?_, ?_⟩⟩
  · rw [Work.crcOut, Work.crcWalk_acc, Work.crcWalk_acc, Work.initAcc_acc, ← crcFold_append, crc32]
  · rw [Work.crcWalk_acc, Work.crcWalk_acc]

end Sys2Proof
end

section
/-! PROOFS. Well-formed UTF-8 as the shortest forms (the closing paragraph of spec/42_chunk.md R106): the shortest form of a
unit's character is the unit, and the shortest form of a scalar value is a unit that decodes to it. -/

namespace Sys2Proof

theorem continuation_toNat (n : Nat) : (continuation n).toNat = 0x80 + n % 64 := by
  rw [continuation, BitVec.toNat_ofNat]
  omega

theorem byte_ofNat_toNat {n : Nat} (h : n < 256) : (BitVec.ofNat 8 n).toNat = n := by
  rw [BitVec.toNat_ofNat, Nat.mod_eq_of_lt h]

theorem byte_ofNat_eq {n : Nat} {b : Byte} (h : n = b.toNat) : BitVec.ofNat 8 n = b := by
  rw [h, BitVec.ofNat_toNat, BitVec.setWidth_eq]

theorem continuation_eq_iff {n : Nat} {b : Byte} : continuation n = b ↔ 0x80 + n % 64 = b.toNat := by
  rw [← BitVec.toNat_inj, continuation_toNat]

/- The four lengths of a shortest form -/

section
variable {ch : CodePoint}

theorem utf8Encode_one (h : ch.toNat < 0x80) : utf8Encode ch = [BitVec.ofNat 8 ch.toNat] := if_pos h

theorem utf8Encode_two (hlo : 0x80 ≤ ch.toNat) (hhi : ch.toNat < 0x800) :
    utf8Encode ch = [BitVec.ofNat 8 (0xC0 + ch.toNat / 64), continuation ch.toNat] := by
  simp only [utf8Encode, if_neg (Nat.not_lt_of_le hlo), if_pos hhi]

theorem utf8Encode_three (hlo : 0x800 ≤ ch.toNat) (hhi : ch.toNat < 0x10000) :
    utf8Encode ch =
      [BitVec.ofNat 8 (0xE0 + ch.toNat / 4096), continuation (ch.toNat / 64), continuation ch.toNat] := by
  simp only [utf8Encode, if_neg (show ¬ch.toNat < 0x80 by omega), if_neg (Nat.not_lt_of_le hlo), if_pos hhi]

theorem utf8Encode_four (hlo : 0x10000 ≤ ch.toNat) :
    utf8Encode ch =
      [BitVec.ofNat 8 (0xF0 + ch.toNat / 262144), continuation (ch.toNat / 4096), continuation (ch.toNat / 64),
        continuation ch.toNat] := by
  simp only [utf8Encode, if_neg (show ¬ch.toNat < 0x80 by omega), if_neg (show ¬ch.toNat < 0x800 by omega),
    if_neg (Nat.not_lt_of_le hlo)]

end

/- From a unit to its shortest form -/

theorem utf8Encode_zext21 {b : Byte} (h : b.toNat ≤ 0x7F) : utf8Encode (zext21 b) = [b] := by
  rw [utf8Encode_one (by rw [zext21_toNat]; omega), zext21_toNat, BitVec.ofNat_toNat, BitVec.setWidth_eq]

theorem utf8Encode_utf8Char2 {b0 b1 : Byte} (hrow : utf8Row b0 = some .two) (h1 : inRange 0x80 0xBF b1 = true) :
    utf8Encode (utf8Char2 b0 b1) = [b0, b1] := by
  obtain ⟨h0lo, h0hi⟩ := utf8Row_two_iff.mp hrow
  obtain ⟨h1lo, h1hi⟩ := inRange_iff.mp h1
  have hch := utf8Char2_toNat b0 b1
  rw [utf8Encode_two (by omega) (by omega)]
  simp only [List.cons.injEq, and_true, continuation_eq_iff]
  exact ⟨byte_ofNat_eq (by omega), by omega⟩

/-- After `E0` the second byte starts high enough for the character to need three bytes. -/
theorem utf8Unit3_bounds {b0 b1 : Byte} {lo hi : Nat} (hrow : utf8Row b0 = some (.three lo hi))
    (h1 : inRange lo hi b1 = true) :
    0xE0 ≤ b0.toNat ∧ b0.toNat ≤ 0xEF ∧ 0x80 ≤ b1.toNat ∧ b1.toNat ≤ 0xBF ∧ (b0.toNat = 0xE0 → 0xA0 ≤ b1.toNat) := by
  obtain ⟨h0lo, h0hi, rfl, rfl⟩ := utf8Row_three hrow
  rw [inRange_iff] at h1
  split_ifs at h1 <;> omega

theorem utf8Encode_utf8Char3 {b0 b1 b2 : Byte} {lo hi : Nat} (hrow : utf8Row b0 = some (.three lo hi))
    (h1 : inRange lo hi b1 = true) (h2 : inRange 0x80 0xBF b2 = true) :
    utf8Encode (utf8Char3 b0 b1 b2) = [b0, b1, b2] := by
  obtain ⟨h0lo, h0hi, h1lo, h1hi, h1min⟩ := utf8Unit3_bounds hrow h1
  obtain ⟨h2lo, h2hi⟩ := inRange_iff.mp h2
  have hch := utf8Char3_toNat b0 b1 b2
  rw [utf8Encode_three (by omega) (by omega)]
  simp only [List.cons.injEq, and_true, continuation_eq_iff]
  exact ⟨byte_ofNat_eq (by omega), by omega, by omega⟩

/-- After `F0` the second byte starts high enough for the character to need four bytes. -/
theorem utf8Unit4_bounds {b0 b1 : Byte} {lo hi : Nat} (hrow : utf8Row b0 = some (.four lo hi))
    (h1 : inRange lo hi b1 = true) :
    0xF0 ≤ b0.toNat ∧ b0.toNat ≤ 0xF4 ∧ 0x80 ≤ b1.toNat ∧ b1.toNat ≤ 0xBF ∧ (b0.toNat = 0xF0 → 0x90 ≤ b1.toNat) := by
  obtain ⟨h0lo, h0hi, rfl, rfl⟩ := utf8Row_four hrow
  rw [inRange_iff] at h1
  split_ifs at h1 <;> omega

theorem utf8Encode_utf8Char4 {b0 b1 b2 b3 : Byte} {lo hi : Nat} (hrow : utf8Row b0 = some (.four lo hi))
    (h1 : inRange lo hi b1 = true) (h2 : inRange 0x80 0xBF b2 = true) (h3 : inRange 0x80 0xBF b3 = true) :
    utf8Encode (utf8Char4 b0 b1 b2 b3) = [b0, b1, b2, b3] := by
  obtain ⟨h0lo, h0hi, h1lo, h1hi, h1min⟩ := utf8Unit4_bounds hrow h1
  obtain ⟨h2lo, h2hi⟩ := inRange_iff.mp h2
  obtain ⟨h3lo, h3hi⟩ := inRange_iff.mp h3
  have hch := utf8Char4_toNat b0 b1 b2 b3
  rw [utf8Encode_four (by omega)]
  simp only [List.cons.injEq, and_true, continuation_eq_iff]
  exact ⟨byte_ofNat_eq (by omega), by omega, by omega, by omega⟩

/-- A unit that is the shortest form of its character, in front of bytes that are the shortest forms of theirs. -/
theorem flatMap_utf8Encode_of_map_cons {ch : CodePoint} {u rest : Bytes} {d : Option Text} {x : Text}
    (hch : utf8Encode ch = u) (hd : ∀ y, d = some y → rest = y.flatMap utf8Encode) (h : d.map (ch :: ·) = some x) :
    u ++ rest = x.flatMap utf8Encode := by
  obtain ⟨y, hy, rfl⟩ := Option.map_eq_some_iff.mp h
  rw [List.flatMap_cons, hch, hd y hy]

/-- What decodes is the shortest forms of its text, by recursion over the units as in `isText_of_utf8Decode`. -/
theorem eq_flatMap_of_utf8Decode {d : Bytes} {x : Text} (h : utf8Decode d = some x) : d = x.flatMap utf8Encode := by
  fun_induction utf8Decode d generalizing x with
  | case1 => cases h; rfl
  | case3 b0 rest hrow ih =>
    exact flatMap_utf8Encode_of_map_cons (utf8Encode_zext21 (utf8Row_one_iff.mp hrow)) (fun _ => ih) h
  | case4 b0 hrow b1 rest h1 ih =>
    exact flatMap_utf8Encode_of_map_cons (utf8Encode_utf8Char2 hrow h1) (fun _ => ih) h
  | case7 b0 lo hi hrow b1 b2 rest hin ih =>
    obtain ⟨h1, h2⟩ := Bool.and_eq_true_iff.mp hin
    exact flatMap_utf8Encode_of_map_cons (utf8Encode_utf8Char3 hrow h1 h2) (fun _ => ih) h
  | case10 b0 lo hi hrow b1 b2 b3 rest hin ih =>
    obtain ⟨h12, h3⟩ := Bool.and_eq_true_iff.mp hin
    obtain ⟨h1, h2⟩ := Bool.and_eq_true_iff.mp h12
    exact flatMap_utf8Encode_of_map_cons (utf8Encode_utf8Char4 hrow h1 h2 h3) (fun _ => ih) h
  | _ => nomatch h

/- From a scalar value to its unit -/

theorem utf8Row_eq_three : ∀ b : Byte, 0xE0 ≤ b.toNat → b.toNat ≤ 0xEF →
    utf8Row b = some (.three (if b.toNat = 0xE0 then 0xA0 else 0x80) (if b.toNat = 0xED then 0x9F else 0xBF)) := by
  decide

theorem utf8Row_eq_four : ∀ b : Byte, 0xF0 ≤ b.toNat → b.toNat ≤ 0xF4 →
    utf8Row b = some (.four (if b.toNat = 0xF0 then 0x90 else 0x80) (if b.toNat = 0xF4 then 0x8F else 0xBF)) := by
  decide

/-- A continuation byte is in the range of every byte after the second. -/
theorem inRange_continuation (n : Nat) : inRange 0x80 0xBF (continuation n) = true := by
  rw [inRange_iff, continuation_toNat]
  omega

section
variable {ch : CodePoint} (rest : Bytes)

theorem utf8Decode_utf8Encode_one (h : ch.toNat < 0x80) :
    utf8Decode (utf8Encode ch ++ rest) = (utf8Decode rest).map (ch :: ·) := by
  have h0 : (BitVec.ofNat 8 ch.toNat).toNat = ch.toNat := byte_ofNat_toNat (by omega)
  have hchar : (BitVec.ofNat 8 ch.toNat).zeroExtend 21 = ch := BitVec.eq_of_toNat_eq ((zext21_toNat _).trans h0)
  rw [utf8Encode_one h, List.singleton_append, utf8Decode_one rest (utf8Row_one_iff.mpr (by omega)), hchar]

theorem utf8Decode_utf8Encode_two (hlo : 0x80 ≤ ch.toNat) (hhi : ch.toNat < 0x800) :
    utf8Decode (utf8Encode ch ++ rest) = (utf8Decode rest).map (ch :: ·) := by
  have h0 : (BitVec.ofNat 8 (0xC0 + ch.toNat / 64)).toNat = 0xC0 + ch.toNat / 64 := byte_ofNat_toNat (by omega)
  have hchar : utf8Char2 (BitVec.ofNat 8 (0xC0 + ch.toNat / 64)) (continuation ch.toNat) = ch := by
    apply BitVec.eq_of_toNat_eq
    rw [utf8Char2_toNat, h0, continuation_toNat]
    omega
  rw [utf8Encode_two hlo hhi]
  exact (utf8Decode_two _ rest (utf8Row_two_iff.mpr (by omega))).trans
    ((if_pos (inRange_continuation _)).trans (by rw [hchar]))

theorem utf8Decode_utf8Encode_three (hch : isScalar ch = true) (hlo : 0x800 ≤ ch.toNat) (hhi : ch.toNat < 0x10000) :
    utf8Decode (utf8Encode ch ++ rest) = (utf8Decode rest).map (ch :: ·) := by
  rw [isScalar_iff] at hch
  have h0 : (BitVec.ofNat 8 (0xE0 + ch.toNat / 4096)).toNat = 0xE0 + ch.toNat / 4096 := byte_ofNat_toNat (by omega)
  have hchar : utf8Char3 (BitVec.ofNat 8 (0xE0 + ch.toNat / 4096)) (continuation (ch.toNat / 64))
      (continuation ch.toNat) = ch := by
    apply BitVec.eq_of_toNat_eq
    rw [utf8Char3_toNat, h0, continuation_toNat, continuation_toNat]
    omega
  have hrow := utf8Row_eq_three (BitVec.ofNat 8 (0xE0 + ch.toNat / 4096)) (by omega) (by omega)
  rw [h0] at hrow
  have h1 : inRange (if 0xE0 + ch.toNat / 4096 = 0xE0 then 0xA0 else 0x80)
      (if 0xE0 + ch.toNat / 4096 = 0xED then 0x9F else 0xBF) (continuation (ch.toNat / 64)) = true := by
    rw [inRange_iff, continuation_toNat]
    split_ifs <;> omega
  rw [utf8Encode_three hlo hhi]
  exact (utf8Decode_three _ _ rest hrow).trans
    ((if_pos (Bool.and_eq_true_iff.mpr ⟨h1, inRange_continuation _⟩)).trans (by rw [hchar]))

theorem utf8Decode_utf8Encode_four (hch : isScalar ch = true) (hlo : 0x10000 ≤ ch.toNat) :
    utf8Decode (utf8Encode ch ++ rest) = (utf8Decode rest).map (ch :: ·) := by
  rw [isScalar_iff] at hch
  have h0 : (BitVec.ofNat 8 (0xF0 + ch.toNat / 262144)).toNat = 0xF0 + ch.toNat / 262144 :=
    byte_ofNat_toNat (by omega)
  have hchar : utf8Char4 (BitVec.ofNat 8 (0xF0 + ch.toNat / 262144)) (continuation (ch.toNat / 4096))
      (continuation (ch.toNat / 64)) (continuation ch.toNat) = ch := by
    apply BitVec.eq_of_toNat_eq
    rw [utf8Char4_toNat, h0, continuation_toNat, continuation_toNat, continuation_toNat]
    omega
  have hrow := utf8Row_eq_four (BitVec.ofNat 8 (0xF0 + ch.toNat / 262144)) (by omega) (by omega)
  rw [h0] at hrow
  have h1 : inRange (if 0xF0 + ch.toNat / 262144 = 0xF0 then 0x90 else 0x80)
      (if 0xF0 + ch.toNat / 262144 = 0xF4 then 0x8F else 0xBF) (continuation (ch.toNat / 4096)) = true := by
    rw [inRange_iff, continuation_toNat]
    split_ifs <;> omega
  rw [utf8Encode_four hlo]
  exact (utf8Decode_four _ _ _ rest hrow).trans ((if_pos (Bool.and_eq_true_iff.mpr
    ⟨Bool.and_eq_true_iff.mpr ⟨h1, inRange_continuation _⟩, inRange_continuation _⟩)).trans (by rw [hchar]))

/-- The shortest form of a scalar value, in front of any bytes, is read as one unit. -/
theorem utf8Decode_utf8Encode_append (hch : isScalar ch = true) :
    utf8Decode (utf8Encode ch ++ rest) = (utf8Decode rest).map (ch :: ·) := by
  rcases Nat.lt_or_ge ch.toNat 0x80 with h1 | h1
  · exact utf8Decode_utf8Encode_one rest h1
  rcases Nat.lt_or_ge ch.toNat 0x800 with h2 | h2
  · exact utf8Decode_utf8Encode_two rest h1 h2
  rcases Nat.lt_or_ge ch.toNat 0x10000 with h3 | h3
  · exact utf8Decode_utf8Encode_three rest hch h2 h3
  · exact utf8Decode_utf8Encode_four rest hch h3

end

theorem utf8Decode_flatMap {x : Text} (hx : isText x = true) : utf8Decode (x.flatMap utf8Encode) = some x := by
  induction x with
  | nil => rfl
  | cons ch x ih =>
    obtain ⟨hch, hx⟩ := Bool.and_eq_true_iff.mp ((isText_cons ch x).symm.trans hx)
    rw [List.flatMap_cons, utf8Decode_utf8Encode_append _ hch, ih hx, Option.map_some]

theorem utf8Decode_of_ascii {d : Bytes} (h : ∀ b ∈ d, b.toNat < 0x80) : utf8Decode d = some (d.map zext21) := by
  induction d with
  | nil => rfl
  | cons b d ih =>
    obtain ⟨hb, hd⟩ := List.forall_mem_cons.mp h
    rw [utf8Decode_one d (utf8Row_one_iff.mpr (Nat.le_of_lt_succ hb)), ih hd, Option.map_some, List.map_cons, zext21]

/-- Settles O32: by recursion over the units what decodes is shortest forms, and by induction over the text they
decode. -/
theorem utf8IsExactlyTheShortestForms : Obligations.Utf8IsExactlyTheShortestForms := by
  refine ⟨fun d x => ⟨fun h => ⟨isText_of_utf8Decode h, eq_flatMap_of_utf8Decode h⟩, ?_⟩, fun d => utf8Decode_of_ascii⟩
  rintro ⟨hx, rfl⟩
  exact utf8Decode_flatMap hx

end Sys2Proof
end

section
/-! PROOFS. The CHUNK unit (spec/42_chunk.md): construction (R101), the accessors (R102 to R105), the payload as text (R107)
and serialization (R108). -/

namespace Sys2Proof

open Machine

theorem answers_chunkNew {s : State} {t : Bytes4} {d : Bytes} (ht : isTag t = true)
    (hd : d.length ≤ s.params.maxPayload.toNat) : Answers s (.chunkNew t d) (okResponse (.chunk (chunkOf t d))) :=
  answers_of_body_returned (Bool.and_eq_true_iff.mpr ⟨ht, decide_eq_true hd⟩)
    (by rw [Instr.body, chunkOfPayload, buildChunk_chunk, chunkOf]) (by simp)

/-- Within MAX_PAYLOAD, which is below 2^32, the length field does not wrap (spec/42_chunk.md R100 (b)). -/
theorem chunkOf_length_toNat {p : Params} {t : Bytes4} {d : Bytes} (hd : d.length ≤ p.maxPayload.toNat) :
    (chunkOf t d).length.toNat = d.length := by
  have := p.maxPayload.isLt
  exact Nat.mod_eq_of_lt (by omega)

/-- Settles O28: construction admits a Tag and a payload within the bound, and runs type and payload through one
accumulator. -/
theorem chunkNewComputesLengthAndChecksum : Obligations.ChunkNewComputesLengthAndChecksum := by
  refine fun s t d => ⟨fun ht hd => ⟨answers_chunkNew ht hd, isChunk_chunkOf ht hd, chunkOf_length_toNat hd⟩, ?_⟩
  intro h
  refine ⟨_, exec_of_not_wf (Bool.and_eq_false_iff.mpr (h.imp_right fun hd => ?_))⟩
  exact decide_eq_false (by omega)

/-- Settles O30: each accessor returns its field as stored, and the record invariants say what the fields hold. -/
theorem chunkAccessorsReadTheFields : Obligations.ChunkAccessorsReadTheFields := by
  intro s c hc
  obtain ⟨ht, hlen, -, hcrc⟩ := isChunk_iff.mp hc
  exact ⟨answers_of_body_returned hc rfl rfl, hlen, answers_of_body_returned hc rfl rfl, ht,
    answers_of_body_returned hc rfl rfl, answers_of_body_returned hc rfl rfl, hcrc⟩

theorem answers_chunkDataAsText_of_some {s : State} {c : Chunk} {x : Text} (hc : isChunk s.params c = true)
    (hx : utf8Decode c.data = some x) : Answers s (.chunkDataAsText c) (okResponse (.text x)) :=
  answers_of_body_returned hc (by rw [Instr.body, textOfPayload, hx]) rfl

theorem answers_chunkDataAsText_of_none {s : State} {c : Chunk} (hc : isChunk s.params c = true)
    (hx : utf8Decode c.data = none) : Answers s (.chunkDataAsText c) (errResponse .notUtf8) :=
  answers_of_body_raise hc (by rw [Instr.body, textOfPayload, hx])

/-- Settles O31: the operation ends as the decoding of the payload does, and the empty payload decodes to the empty
text. -/
theorem chunkDataAsTextDecodesThePayload : Obligations.ChunkDataAsTextDecodesThePayload := fun _ _ hc =>
  ⟨fun _ => answers_chunkDataAsText_of_some hc, answers_chunkDataAsText_of_none hc,
    fun hd => answers_chunkDataAsText_of_some hc (by rw [hd, utf8Decode_nil])⟩

theorem answers_chunkSerialize {s : State} {c : Chunk} (hc : isChunk s.params c = true) :
    Answers s (.chunkSerialize c) (okResponse (.bytes (frameBytes c))) := by
  obtain ⟨-, hlen, -, -⟩ := isChunk_iff.mp hc
  exact answers_of_body_returned hc (frameOfChunk_eq hlen _) rfl

/- The fields of a buffer -/

/-- A buffer laid out as the four fields of a frame (spec/30_encoding.md R50). -/
abbrev joinFields (l t : Bytes4) (d : Bytes) (k : Bytes4) : Bytes := l.toList ++ t.toList ++ d ++ k.toList

theorem frameBytes_eq_joinFields (c : Chunk) : frameBytes c = joinFields (toBe32 c.length) c.type c.data (toBe32 c.crc) :=
  rfl

theorem joinFields_length (l t k : Bytes4) (d : Bytes) : (joinFields l t d k).length = d.length + 12 := by
  simp [joinFields]; omega

/-- The four bytes that stand between two parts of a buffer. -/
theorem fieldAt_append (a c : Bytes) (v : Bytes4) : fieldAt (a ++ v.toList ++ c) a.length = v := by
  simp [fieldAt, Bytes4.toList]

/-- The slice that stands between two parts of a buffer. -/
theorem slice_append (a v c : Bytes) : slice (a ++ v ++ c) a.length (a ++ v).length = v := by
  simp [slice]

section
variable (l t k : Bytes4) (d : Bytes)

theorem joinFields_length_sub_four :
    (joinFields l t d k).length - 4 = (l.toList ++ t.toList ++ d).length := by
  simp [joinFields, Nat.add_comm]

theorem fieldAt_joinFields_zero : fieldAt (joinFields l t d k) 0 = l := by
  simpa using fieldAt_append [] (t.toList ++ d ++ k.toList) l

theorem fieldAt_joinFields_four : fieldAt (joinFields l t d k) 4 = t := by
  simpa using fieldAt_append l.toList (d ++ k.toList) t

theorem fieldAt_joinFields_last : fieldAt (joinFields l t d k) ((joinFields l t d k).length - 4) = k := by
  rw [joinFields_length_sub_four]
  simpa using fieldAt_append (l.toList ++ t.toList ++ d) [] k

theorem slice_joinFields_four : slice (joinFields l t d k) 4 ((joinFields l t d k).length - 4) = t.toList ++ d := by
  rw [joinFields_length_sub_four]
  simpa using slice_append l.toList (t.toList ++ d) k.toList

theorem slice_joinFields_eight : slice (joinFields l t d k) 8 ((joinFields l t d k).length - 4) = d := by
  rw [joinFields_length_sub_four]
  exact slice_append (l.toList ++ t.toList) d k.toList

theorem drop_joinFields_four : (joinFields l t d k).drop 4 = t.toList ++ d ++ k.toList := rfl

theorem frameButForLength_joinFields :
    frameButForLength (joinFields l t d k) ↔ isTag t = true ∧ be32 k = crc32 (t.toList ++ d) := by
  rw [frameButForLength, fieldAt_joinFields_four, fieldAt_joinFields_last, slice_joinFields_four, joinFields_length]
  simp

theorem wellFormedFrame_joinFields :
    wellFormedFrame (joinFields l t d k) ↔
      (isTag t = true ∧ be32 k = crc32 (t.toList ++ d)) ∧ (be32 l).toNat = d.length := by
  rw [wellFormedFrame, frameButForLength_joinFields, joinFields_length, Nat.add_sub_cancel, fieldAt_joinFields_zero]

end

/-- The Chunk of the type field and the payload of a buffer. -/
def chunkAt (f : Bytes) : Chunk := chunkOf (fieldAt f 4) (slice f 8 (f.length - 4))

theorem chunkAt_joinFields (l t k : Bytes4) (d : Bytes) : chunkAt (joinFields l t d k) = chunkOf t d := by
  rw [chunkAt, fieldAt_joinFields_four, slice_joinFields_eight]

section
variable {p : Params} {c : Chunk} (hc : isChunk p c = true)
include hc

theorem chunkAt_frameBytes : chunkAt (frameBytes c) = c := by
  obtain ⟨-, -, heq⟩ := (chunkIsDeterminedByTypeAndData p c).mp hc
  rw [frameBytes_eq_joinFields, chunkAt_joinFields, ← heq]

theorem wellFormedFrame_frameBytes : wellFormedFrame (frameBytes c) := by
  obtain ⟨ht, hlen, -, hcrc⟩ := isChunk_iff.mp hc
  rw [frameBytes_eq_joinFields, wellFormedFrame_joinFields, be32_toBe32, be32_toBe32]
  exact ⟨⟨ht, hcrc⟩, hlen⟩

end

/-- Settles O33: the frame is four fields of 4, 4, `length` and 4 bytes, and its type and payload give the Chunk back. -/
theorem chunkSerializeWritesTheWireLayout : Obligations.ChunkSerializeWritesTheWireLayout := by
  refine ⟨fun s c hc => ⟨answers_chunkSerialize hc, ?_, wellFormedFrame_frameBytes hc⟩, fun p c c' hc hc' heq => ?_⟩
  · obtain ⟨-, hlen, -, -⟩ := isChunk_iff.mp hc
    rw [frameBytes_length, hlen, Nat.add_comm]
  · rw [← chunkAt_frameBytes hc, heq, chunkAt_frameBytes hc']

end Sys2Proof
end

section
/-! PROOFS. Parsing (spec/42_chunk.md R109): the response to a buffer as a function of its fields, which buffers parse
(R112), and parse and serialize as inverses (R110). -/

namespace Sys2Proof

open Machine

/-- The response of CHUNK_PARSE (spec/42_chunk.md R109), the failures in the order of spec/60_exceptions.md R126. -/
def parseResponse (p : LenPolicy) (f : Bytes) : Response :=
  if f.length < 12 then errResponse .truncated
  else if p = .strict ∧ (be32 (fieldAt f 0)).toNat ≠ f.length - 12 then errResponse .invalidLength
  else if isTag (fieldAt f 4) then
    if crc32 (slice f 4 (f.length - 4)) = be32 (fieldAt f (f.length - 4)) then okResponse (.chunk (chunkAt f))
    else errResponse .checksumMismatch
  else errResponse .invalidTypeBytes

theorem parseResponse_joinFields (p : LenPolicy) (l t k : Bytes4) (d : Bytes) :
    parseResponse p (joinFields l t d k) =
      if p = .strict ∧ (be32 l).toNat ≠ d.length then errResponse .invalidLength
      else if isTag t then
        if crc32 (t.toList ++ d) = be32 k then okResponse (.chunk (chunkOf t d)) else errResponse .checksumMismatch
      else errResponse .invalidTypeBytes := by
  rw [parseResponse, fieldAt_joinFields_zero, fieldAt_joinFields_four, fieldAt_joinFields_last, slice_joinFields_four,
    chunkAt_joinFields, joinFields_length, Nat.add_sub_cancel, if_neg (Nat.not_lt_of_le (Nat.le_add_left 12 d.length))]

/-- The steps of R109 give a buffer within the bound the response of its fields. -/
theorem answers_chunkParse {s : State} {f : Bytes} (hf : f.length ≤ s.params.maxPayload.toNat + 12) :
    Answers s (.chunkParse f) (parseResponse s.params.lenPolicy f) := by
  have hwf : (Instr.chunkParse f).wf s.params = true := decide_eq_true hf
  rcases Nat.lt_or_ge f.length 12 with h | h
  · rw [parseResponse, if_pos h]
    exact answers_of_body_raise hwf (parseFrame_short _ h _)
  · obtain ⟨l, t, k, d, rfl⟩ := exists_frame_fields h
    have hbody := parseFrame_eq s.params.lenPolicy l t k d s.work.start
    rw [parseFields_eq, parseVerify_eq, buildChunk_chunk] at hbody
    rw [parseResponse_joinFields]
    split_ifs at hbody ⊢ with hlen ht hcrc
    · exact answers_of_body_raise hwf hbody
    · exact answers_of_body_returned hwf hbody (by simp)
    · exact answers_of_body_raise hwf hbody
    · exact answers_of_body_raise hwf hbody

theorem ne_strict_of_infer {p : LenPolicy} (h : p = .infer) : p ≠ .strict := h ▸ nofun

/-- Settles O34: the response of the fields, read branch by branch. -/
theorem chunkParseFollowsItsSteps : Obligations.ChunkParseFollowsItsSteps := by
  refine ⟨fun s f hf hshort => ?_, fun s l t k d hd => ?_, fun f hf => ?_⟩
  · have h := answers_chunkParse hf
    rwa [parseResponse, if_pos hshort] at h
  · have h : Answers s (.chunkParse (joinFields l t d k)) _ := answers_chunkParse (by rw [joinFields_length]; omega)
    rw [parseResponse_joinFields] at h
    refine ⟨fun hlen => ?_, fun hlen => ?_⟩
    · rwa [if_pos hlen] at h
    · have hlen' : ¬(s.params.lenPolicy = .strict ∧ (be32 l).toNat ≠ d.length) := by
        rintro ⟨hstrict, hne⟩
        exact hlen.elim (fun hinfer => ne_strict_of_infer hinfer hstrict) hne
      rw [if_neg hlen'] at h
      refine ⟨fun ht => ?_, fun ht hcrc => ?_, fun ht hcrc => ?_⟩
      · simpa [ht] using h
      · simpa [ht, hcrc] using h
      · simpa [ht, hcrc] using h
  · obtain ⟨l, t, k, d, rfl⟩ := exists_frame_fields hf
    exact ⟨l, t, k, d, rfl, by rw [joinFields_length, Nat.add_sub_cancel]⟩

/-- Which responses are `ok`: the last branch alone. -/
theorem parseResponse_eq_ok_iff {p : LenPolicy} {f : Bytes} {c : Chunk} :
    parseResponse p f = okResponse (.chunk c) ↔
      frameButForLength f ∧ (p = .strict → (be32 (fieldAt f 0)).toNat = f.length - 12) ∧ c = chunkAt f := by
  have herr (e : Err) : errResponse e ≠ okResponse (.chunk c) := fun h => nomatch congrArg Response.value h
  have hok : okResponse (.chunk (chunkAt f)) = okResponse (.chunk c) ↔ c = chunkAt f := by
    simp [okResponse, eq_comm]
  rw [parseResponse, frameButForLength]
  split_ifs with hshort hlen ht hcrc
  · simp [herr, hshort]
  · simp [herr, hlen]
  · have hlen' (hp : p = .strict) : (be32 (fieldAt f 0)).toNat = f.length - 12 :=
      not_not.mp fun hne => hlen ⟨hp, hne⟩
    rw [hok]
    exact ⟨fun h => ⟨⟨Nat.le_of_not_lt hshort, ht, hcrc.symm⟩, hlen', h⟩, fun ⟨_, _, h⟩ => h⟩
  · simp [herr, Ne.symm hcrc]
  · simp [herr, ht]

/-- Only an admitted instruction is answered. -/
theorem wf_of_answers {s : State} {i : Instr} {r : Response} (h : Answers s i r) : i.wf s.params = true := by
  obtain ⟨t, he, -⟩ := h
  obtain ⟨hwf, -⟩ | ⟨-, href⟩ := exec_cases i s
  · exact hwf
  · rw [href] at he
    nomatch he

theorem answers_chunkParse_iff {s : State} {f : Bytes} {r : Response} :
    Answers s (.chunkParse f) r ↔
      f.length ≤ s.params.maxPayload.toNat + 12 ∧ r = parseResponse s.params.lenPolicy f := by
  constructor
  · intro h
    have hf := of_decide_eq_true (wf_of_answers h)
    exact ⟨hf, answers_unique (answers_chunkParse hf) h⟩
  · rintro ⟨hf, rfl⟩
    exact answers_chunkParse hf

/-- Which buffers parse, and to what. -/
theorem answers_chunkParse_ok_iff {s : State} {f : Bytes} {c : Chunk} :
    Answers s (.chunkParse f) (okResponse (.chunk c)) ↔
      f.length ≤ s.params.maxPayload.toNat + 12 ∧ frameButForLength f ∧
        (s.params.lenPolicy = .strict → (be32 (fieldAt f 0)).toNat = f.length - 12) ∧ c = chunkAt f := by
  rw [answers_chunkParse_iff, eq_comm (b := parseResponse _ _), parseResponse_eq_ok_iff]

/-- A Chunk's frame parses to it, under either policy. -/
theorem answers_chunkParse_frameBytes {s : State} {c : Chunk} (hc : isChunk s.params c = true) :
    Answers s (.chunkParse (frameBytes c)) (okResponse (.chunk c)) := by
  obtain ⟨-, -, hmax, -⟩ := isChunk_iff.mp hc
  obtain ⟨hframe, hlen⟩ := wellFormedFrame_frameBytes hc
  exact answers_chunkParse_ok_iff.mpr
    ⟨of_decide_eq_true (frameFits_frameBytes hmax), hframe, fun _ => hlen, (chunkAt_frameBytes hc).symm⟩

/- Serialize after parse -/

theorem slice_length (f : Bytes) {i j : Nat} (h : j ≤ f.length) : (slice f i j).length = j - i := by
  simp [slice]; omega

section
variable {f : Bytes} (hframe : frameButForLength f)
include hframe

theorem isChunk_chunkAt {p : Params} (hf : f.length ≤ p.maxPayload.toNat + 12) : isChunk p (chunkAt f) = true := by
  obtain ⟨-, ht, -⟩ := hframe
  exact isChunk_chunkOf ht (by rw [slice_length f (Nat.sub_le ..)]; omega)

/-- Serialization writes the computed length, and the rest of the buffer as it was: the checksum matched. -/
theorem frameBytes_chunkAt :
    frameBytes (chunkAt f) = (toBe32 (BitVec.ofNat 32 (f.length - 12))).toList ++ f.drop 4 := by
  obtain ⟨l, t, k, d, rfl⟩ := exists_frame_fields hframe.left
  obtain ⟨-, hcrc⟩ := (frameButForLength_joinFields l t k d).mp hframe
  rw [chunkAt_joinFields, drop_joinFields_four, joinFields_length, Nat.add_sub_cancel, frameBytes, chunkOf, ← hcrc,
    toBe32_be32]
  simp only [List.append_assoc]

end

theorem frameBytes_chunkAt_of_wellFormedFrame {f : Bytes} (h : wellFormedFrame f) : frameBytes (chunkAt f) = f := by
  obtain ⟨hframe, hlen⟩ := h
  rw [frameBytes_chunkAt hframe, ← hlen, BitVec.ofNat_toNat, BitVec.setWidth_eq, toBe32_be32]
  obtain ⟨l, t, k, d, rfl⟩ := exists_frame_fields hframe.left
  rw [fieldAt_joinFields_zero, drop_joinFields_four]
  simp only [List.append_assoc]

/-- Settles O35: the frame of a Chunk is well-formed and gives it back, and the Chunk of a buffer that parses serializes
to the buffer with the computed length. -/
theorem parseAndSerializeAreInverse : Obligations.ParseAndSerializeAreInverse := by
  refine ⟨fun s s' t d hp ht hd => ?_, fun s f c h => ?_, fun s f hstrict hf hwf => ?_⟩
  · have hc : isChunk s.params (chunkOf t d) = true := isChunk_chunkOf ht hd
    exact ⟨_, _, answers_chunkNew ht hd, answers_chunkSerialize hc, answers_chunkParse_frameBytes (hp ▸ hc)⟩
  · obtain ⟨hf, hframe, hlen, rfl⟩ := answers_chunkParse_ok_iff.mp h
    have hser := answers_chunkSerialize (isChunk_chunkAt hframe hf)
    refine ⟨fun hstrict => ?_, fun _ => ?_⟩
    · rwa [frameBytes_chunkAt_of_wellFormedFrame ⟨hframe, hlen hstrict⟩] at hser
    · rwa [frameBytes_chunkAt hframe] at hser
  · have hser := answers_chunkSerialize (isChunk_chunkAt hwf.left hf)
    rw [frameBytes_chunkAt_of_wellFormedFrame hwf] at hser
    exact ⟨chunkAt f, answers_chunkParse_ok_iff.mpr ⟨hf, hwf.left, fun _ => hwf.right, rfl⟩, hser⟩

/- Shortened frames -/

theorem fieldAt_take (f : Bytes) {i n : Nat} (h : i + 4 ≤ n) : fieldAt (f.take n) i = fieldAt f i := by
  have hget (j : Nat) (hj : j < n) : (f.take n).getD j 0#8 = f.getD j 0#8 := by
    rw [List.getD_eq_getElem?_getD, List.getElem?_take_of_lt hj, List.getD_eq_getElem?_getD]
  simp only [fieldAt, hget i (by omega), hget (i + 1) (by omega), hget (i + 2) (by omega), hget (i + 3) (by omega)]

theorem slice_take (f : Bytes) {i j n : Nat} (h : j ≤ n) : slice (f.take n) i j = slice f i j := by
  rw [slice, slice, List.drop_take, List.take_take, Nat.min_eq_left (by omega)]

/-- Settles O37: a buffer parses when every test passes, and a shortened frame keeps the length field, the type and
the bytes before its end. -/
theorem whichBuffersParse : Obligations.WhichBuffersParse := by
  refine ⟨fun s f hf hstrict => ?_, fun s f hf hinfer => ?_, fun s s' f c hstrict hinfer hmax h => ?_,
    fun s f n hf hwf h12 hn => ?_⟩
  · simp [answers_chunkParse_ok_iff, hf, hstrict, wellFormedFrame]
  · simp [answers_chunkParse_ok_iff, hf, hinfer]
  · obtain ⟨hf, hframe, -, hc⟩ := answers_chunkParse_ok_iff.mp h
    exact answers_chunkParse_ok_iff.mpr ⟨hmax ▸ hf, hframe, fun hs => absurd hs (ne_strict_of_infer hinfer), hc⟩
  · obtain ⟨⟨-, ht, -⟩, hlen⟩ := hwf
    have hlength : (f.take n).length = n := List.length_take_of_le (Nat.le_of_lt hn)
    have h : Answers s (.chunkParse (f.take n)) _ := answers_chunkParse (by omega)
    rw [parseResponse, hlength, if_neg (by omega), fieldAt_take f (by omega : 0 + 4 ≤ n),
      fieldAt_take f (by omega : 4 + 4 ≤ n), fieldAt_take f (by omega : n - 4 + 4 ≤ n), slice_take f (Nat.sub_le n 4),
      hlen, if_pos ht] at h
    refine ⟨fun hstrict => ?_, fun hinfer hcrc => ?_⟩
    · rwa [if_pos ⟨hstrict, by omega⟩] at h
    · rwa [if_neg (fun hs => ne_strict_of_infer hinfer hs.left), if_neg (Ne.symm hcrc)] at h

end Sys2Proof
end

section
/-! PROOFS. A frame with one bit inverted (spec/42_chunk.md R111): the fields it leaves alone, the one it changes, and what
the parse makes of it. -/

namespace Sys2Proof

open Machine

theorem xor_bit_ne (b : Byte) {k : Nat} (hk : k < 8) : b ^^^ 1#8 <<< k ≠ b := by
  have hbit : ∀ k < 8, 1#8 <<< k ≠ 0#8 := by decide
  simpa using hbit k hk

@[simp] theorem flipBit_length (f : Bytes) (o k : Nat) : (flipBit f o k).length = f.length := by simp [flipBit]

theorem getD_flipBit_self {f : Bytes} {o : Nat} (ho : o < f.length) (k : Nat) :
    (flipBit f o k).getD o 0#8 = f.getD o 0#8 ^^^ 1#8 <<< k := by
  simp [flipBit, ho]

theorem getD_flipBit_of_ne (f : Bytes) {o j : Nat} (h : j ≠ o) (k : Nat) :
    (flipBit f o k).getD j 0#8 = f.getD j 0#8 := by
  simp [flipBit, h.symm]

/-- What holds of the four offsets of a field. -/
theorem forall_offset_iff {P : Nat → Prop} {i : Nat} :
    (∀ j, i ≤ j → j < i + 4 → P j) ↔ P i ∧ P (i + 1) ∧ P (i + 2) ∧ P (i + 3) := by
  constructor
  · intro h
    exact ⟨h _ (by omega) (by omega), h _ (by omega) (by omega), h _ (by omega) (by omega), h _ (by omega) (by omega)⟩
  · rintro ⟨h0, h1, h2, h3⟩ j hlo hhi
    obtain rfl | rfl | rfl | rfl : j = i ∨ j = i + 1 ∨ j = i + 2 ∨ j = i + 3 := by omega
    exacts [h0, h1, h2, h3]

theorem fieldAt_eq_iff {f g : Bytes} {i : Nat} :
    fieldAt f i = fieldAt g i ↔ ∀ j, i ≤ j → j < i + 4 → f.getD j 0#8 = g.getD j 0#8 := by
  rw [forall_offset_iff, fieldAt, fieldAt, Bytes4.mk.injEq]

theorem isTag_fieldAt_iff {f : Bytes} {i : Nat} :
    isTag (fieldAt f i) = true ↔ ∀ j, i ≤ j → j < i + 4 → isLetter (f.getD j 0#8) = true := by
  rw [forall_offset_iff, isTag_iff, fieldAt]

theorem be32_injective : Function.Injective be32 := Function.LeftInverse.injective toBe32_be32

section
variable {f : Bytes} {o k : Nat}

theorem fieldAt_flipBit_of_outside {i : Nat} (h : o < i ∨ i + 4 ≤ o) : fieldAt (flipBit f o k) i = fieldAt f i :=
  fieldAt_eq_iff.mpr fun j _ _ => getD_flipBit_of_ne f (by omega) k

theorem fieldAt_flipBit_ne {i : Nat} (ho : o < f.length) (hk : k < 8) (hlo : i ≤ o) (hhi : o < i + 4) :
    fieldAt (flipBit f o k) i ≠ fieldAt f i := fun h =>
  xor_bit_ne _ hk ((getD_flipBit_self ho k).symm.trans (fieldAt_eq_iff.mp h o hlo hhi))

theorem slice_flipBit_of_outside {i j : Nat} (h : o < i ∨ j ≤ o) : slice (flipBit f o k) i j = slice f i j := by
  rw [slice, slice, flipBit]
  rcases Nat.lt_or_ge o i with hi | hi
  · rw [List.drop_set_of_lt hi]
  · rw [List.drop_set, if_neg (Nat.not_lt_of_le hi), List.take_set_of_le (by omega)]

theorem slice_flipBit_of_inside {i j : Nat} (hlo : i ≤ o) (hhi : o < j) :
    slice (flipBit f o k) i j = flipBit (slice f i j) (o - i) k := by
  have hget : (slice f i j).getD (o - i) 0#8 = f.getD o 0#8 := by
    rw [slice, List.getD_eq_getElem?_getD, List.getElem?_take_of_lt (by omega), List.getElem?_drop,
      Nat.add_sub_of_le hlo, List.getD_eq_getElem?_getD]
  rw [flipBit, flipBit, hget, slice, slice, List.drop_set, if_neg (by omega), List.take_set]

/-- One inverted bit is a change of one byte, which the checksum detects (spec/41_crc32.md R95 (d)). -/
theorem crc32_flipBit_ne (ho : o < f.length) (hk : k < 8) : crc32 (flipBit f o k) ≠ crc32 f := by
  have hsplit : f = f.take o ++ f.getD o 0#8 :: f.drop (o + 1) := by simp [ho]
  have h := crcDetectsEverySingleByteChange (f.take o) (f.drop (o + 1)) _ _ (xor_bit_ne (f.getD o 0#8) hk)
  rw [← hsplit] at h
  rwa [flipBit, List.set_eq_take_append_cons_drop, if_pos ho]

end

/-- Past the length field, an inverted bit changes the message or its stored checksum, and not both. -/
theorem checksum_flipBit_ne {f : Bytes} {o k : Nat} (hframe : frameButForLength f) (ho : o < f.length) (hk : k < 8)
    (hlo : 4 ≤ o) :
    crc32 (slice (flipBit f o k) 4 (f.length - 4)) ≠ be32 (fieldAt (flipBit f o k) (f.length - 4)) := by
  obtain ⟨hlen, -, hcrc⟩ := hframe
  rcases Nat.lt_or_ge o (f.length - 4) with h | h
  · rw [slice_flipBit_of_inside hlo h, fieldAt_flipBit_of_outside (.inl h), hcrc]
    exact crc32_flipBit_ne (by rw [slice_length f (Nat.sub_le ..)]; omega) hk
  · rw [slice_flipBit_of_outside (.inr h), ← hcrc]
    exact (be32_injective.ne (fieldAt_flipBit_ne ho hk h (by omega))).symm

/-- In the type field the other three bytes are still letters, so the changed byte decides. -/
theorem isTag_fieldAt_flipBit {f : Bytes} {i o k : Nat} (ht : isTag (fieldAt f i) = true) (hlo : i ≤ o)
    (hhi : o < i + 4) : isTag (fieldAt (flipBit f o k) i) = isLetter ((flipBit f o k).getD o 0#8) := by
  refine Bool.eq_iff_iff.mpr ⟨fun h => isTag_fieldAt_iff.mp h o hlo hhi, fun h => isTag_fieldAt_iff.mpr ?_⟩
  intro j hj hj'
  rcases eq_or_ne j o with rfl | hne
  · exact h
  · rw [getD_flipBit_of_ne f hne]
    exact isTag_fieldAt_iff.mp ht j hj hj'

section
variable {f : Bytes} {o k : Nat} (hwf : wellFormedFrame f) (ho : o < f.length) (hk : k < 8)
include hwf ho hk

/-- A changed length field declares another length. -/
theorem parseResponse_strict_flipBit (h : o < 4) :
    parseResponse .strict (flipBit f o k) = errResponse .invalidLength := by
  obtain ⟨⟨h12, -, -⟩, hlen⟩ := hwf
  have hne : (be32 (fieldAt (flipBit f o k) 0)).toNat ≠ f.length - 12 := fun heq =>
    fieldAt_flipBit_ne ho hk (Nat.zero_le o) h (be32_injective (BitVec.eq_of_toNat_eq (heq.trans hlen.symm)))
  rw [parseResponse, flipBit_length, if_neg (Nat.not_lt_of_le h12), if_pos ⟨rfl, hne⟩]

/-- Past the length field only the type test stands before the mismatch. -/
theorem parseResponse_flipBit (p : LenPolicy) (h : 4 ≤ o) :
    parseResponse p (flipBit f o k) =
      if isTag (fieldAt (flipBit f o k) 4) then errResponse .checksumMismatch else errResponse .invalidTypeBytes := by
  have hcrc := checksum_flipBit_ne hwf.left ho hk h
  obtain ⟨⟨h12, -, -⟩, hlen⟩ := hwf
  rw [parseResponse, flipBit_length, if_neg (Nat.not_lt_of_le h12),
    fieldAt_flipBit_of_outside (i := 0) (.inr h), if_neg (fun hne => hne.right hlen), if_neg hcrc]

end

/-- Under INFER nothing reads the length field. -/
theorem parseResponse_infer_flipBit {f : Bytes} {o : Nat} (k : Nat) (h12 : 12 ≤ f.length) (h : o < 4) :
    parseResponse .infer (flipBit f o k) = parseResponse .infer f := by
  have hpolicy (g : Bytes) : ¬(LenPolicy.infer = .strict ∧ (be32 (fieldAt g 0)).toNat ≠ f.length - 12) :=
    fun hs => nomatch hs.left
  rw [parseResponse, parseResponse, chunkAt, chunkAt, flipBit_length, fieldAt_flipBit_of_outside (i := 4) (.inl h),
    fieldAt_flipBit_of_outside (i := f.length - 4) (.inl (by omega)), slice_flipBit_of_outside (i := 4) (.inl h),
    slice_flipBit_of_outside (i := 8) (.inl (by omega)), if_neg (hpolicy _), if_neg (hpolicy _)]

/-- Settles O36: the declared length, the type test and the checksum each see the region they read. -/
theorem oneFlippedBitIsDetected : Obligations.OneFlippedBitIsDetected := by
  intro s c o k hc ho hk
  obtain ⟨ht, hlength, hmax, -⟩ := isChunk_iff.mp hc
  have hwf := wellFormedFrame_frameBytes hc
  have hsize := frameBytes_length c
  have htype : isTag (fieldAt (frameBytes c) 4) = true := by
    rwa [frameBytes_eq_joinFields, fieldAt_joinFields_four]
  have ho' : o < (frameBytes c).length := by omega
  have hparse : Answers s (.chunkParse (flipBit (frameBytes c) o k)) _ :=
    answers_chunkParse (by rw [flipBit_length]; omega)
  refine ⟨fun h hp => ?_, fun h hp => ?_, fun h4 h8 hletter => ?_, fun h4 h8 hletter => ?_, fun h4 h8 hk5 => ?_,
    fun h8 => ?_⟩
  · rwa [hp, parseResponse_strict_flipBit hwf ho' hk h] at hparse
  · obtain ⟨-, hok⟩ := answers_chunkParse_iff.mp (answers_chunkParse_frameBytes hc)
    rw [hp] at hparse hok
    rwa [parseResponse_infer_flipBit k (by omega) h, ← hok] at hparse
  · rwa [parseResponse_flipBit hwf ho' hk _ h4, isTag_fieldAt_flipBit htype h4 h8, hletter,
      if_neg Bool.false_ne_true] at hparse
  · rwa [parseResponse_flipBit hwf ho' hk _ h4, isTag_fieldAt_flipBit htype h4 h8, hletter, if_pos rfl] at hparse
  · rw [hk5, getD_flipBit_self ho', show 1#8 <<< 5 = 0x20#8 from rfl, isLetter_xor_caseBit]
    exact isTag_fieldAt_iff.mp htype o h4 h8
  · rwa [parseResponse_flipBit hwf ho' hk _ (by omega), fieldAt_flipBit_of_outside (.inr h8), htype,
      if_pos rfl] at hparse

end Sys2Proof
end

section
/-! PROOFS. Errors and refusals (spec/60_exceptions.md): which of the six errors an admitted request gets (R121 to R125,
R135), the requests that are refused (R134), that no step faults (R136), and that an error leaves nothing behind
(R129). -/

namespace Sys2Proof

open Machine

/- Refusals and faults -/

theorem exec_ne_fault (i : Instr) (s : State) (e : Fault) : exec i s ≠ .fault e := by
  obtain ⟨-, r, hr⟩ | ⟨-, hr⟩ := exec_cases i s
  · rw [hr]; nofun
  · rw [hr]; nofun

/-- Settles O43: an operation answers or refuses, and a step is an operation, the decoder's refusal, or nothing. -/
theorem noStepFaults : Obligations.NoStepFaults := by
  refine ⟨exec_ne_fault, fun s e => ?_⟩
  cases hf : s.inFlight with
  | none => rw [step_of_idle hf]; nofun
  | some r =>
    cases hd : decode r with
    | ok i => rw [step_of_decode_ok hf hd]; exact exec_ne_fault i s e
    | error _ => rw [step_of_decode_error hf hd]; nofun

/-- Settles O52: the state an operation leaves is idle with the parameters as before, and that is all the next response
depends on. -/
theorem anErrorLeavesNothingBehind : Obligations.AnErrorLeavesNothingBehind := by
  intro s t e i r hidle h _
  obtain ⟨q, rfl⟩ := exec_next h
  exact visible_transact_congr (State.answer_inFlight s q) hidle (State.answer_params s q) r

theorem isChunk_eq_false {p : Params} {c : Chunk}
    (h : c.length.toNat ≠ c.data.length ∨ c.crc ≠ crc32 (c.type.toList ++ c.data) ∨ isTag c.type = false ∨
      p.maxPayload.toNat < c.data.length) : isChunk p c = false := by
  refine Bool.eq_false_iff.mpr fun hc => ?_
  obtain ⟨ht, hlen, hmax, hcrc⟩ := isChunk_iff.mp hc
  obtain h | h | h | h := h
  · exact h hlen
  · exact h hcrc
  · exact Bool.false_ne_true (h.symm.trans ht)
  · omega

theorem isScalar_eq_false {ch : CodePoint} (h : 0x10FFFF < ch.toNat ∨ (0xD800 ≤ ch.toNat ∧ ch.toNat ≤ 0xDFFF)) :
    isScalar ch = false := by
  rw [Bool.eq_false_iff, ne_eq, isScalar_iff]
  omega

theorem isText_eq_false {x : Text} (h : ∃ ch ∈ x, isScalar ch = false) : isText x = false := by
  simpa [isText] using h

theorem exec_chunkNew_of_not_isTag {t : Bytes4} (ht : isTag t = false) (d : Bytes) (s : State) :
    exec (.chunkNew t d) s = .refused .notATag := by
  rw [exec_of_not_wf (by rw [Instr.wf, ht, Bool.false_and]), Instr.refusal, ht]
  rfl

theorem exec_chunkNew_of_oversize {s : State} {t : Bytes4} {d : Bytes} (ht : isTag t = true)
    (hd : s.params.maxPayload.toNat < d.length) : exec (.chunkNew t d) s = .refused .oversize := by
  have hfits : payloadFits s.params d = false := decide_eq_false (Nat.not_le_of_lt hd)
  rw [exec_of_not_wf (by rw [Instr.wf, hfits, Bool.and_false]), Instr.refusal, if_pos ht]

/-- Settles O42: each of these operands is not admitted, and the refusal is the one of the instruction's row. -/
theorem illTypedRequestsAreRefused : Obligations.IllTypedRequestsAreRefused := by
  refine ⟨fun s t ht => ?_, fun s c hc => ?_, fun s t d => exec_chunkNew_of_oversize, fun s f hf => ?_,
    fun s m hm => ?_, fun s x => ?_⟩
  · exact ⟨exec_of_not_wf ht, exec_of_not_wf ht, exec_of_not_wf ht, exec_of_not_wf ht, exec_of_not_wf ht,
      exec_of_not_wf ht, exec_of_not_wf ht, fun d => exec_chunkNew_of_not_isTag ht d s⟩
  · have hchunk : isChunk s.params c = false := isChunk_eq_false hc
    exact ⟨exec_of_not_wf hchunk, exec_of_not_wf hchunk, exec_of_not_wf hchunk, exec_of_not_wf hchunk,
      exec_of_not_wf hchunk, exec_of_not_wf hchunk⟩
  · exact exec_of_not_wf (decide_eq_false (Nat.not_le_of_lt hf))
  · exact exec_of_not_wf (decide_eq_false (Nat.not_le_of_lt hm))
  · rintro ⟨ch, hmem, hch⟩
    exact exec_of_not_wf (isText_eq_false ⟨ch, hmem, isScalar_eq_false hch⟩)

/- The six errors and their causes -/

theorem Machine.Err.code_injective : Function.Injective Err.code := by
  intro e e'
  cases e <;> cases e' <;> decide

@[simp] theorem errResponse_inj {e e' : Err} : errResponse e = errResponse e' ↔ e = e' := by
  simp [errResponse, Err.code_injective.eq_iff]

@[simp] theorem errResponse_ne_okResponse (e : Err) (v : PortValue) : errResponse e ≠ okResponse v := fun h =>
  nomatch congrArg Response.value h

section
variable {s : State} {i : Instr}

/-- The response an instruction is known to get decides whether it gets another. -/
theorem answers_iff_of_answers {r r' : Response} (h : Answers s i r) : Answers s i r' ↔ r' = r :=
  ⟨fun h' => answers_unique h h', fun heq => heq ▸ h⟩

/-- An operation answers only the errors of its column. -/
theorem mem_raisable_of_answers {e : Err} (h : Answers s i (errResponse e)) : e ∈ raisable s.params.lenPolicy i := by
  obtain ⟨t, hexec, hr, -, -⟩ := h
  obtain ⟨v, hv, -, -⟩ | ⟨e', he', heq⟩ := exec_response hexec hr
  · exact absurd hv (errResponse_ne_okResponse e v)
  · rwa [errResponse_inj.mp heq]

end

section
variable {s : State} {e : Err}

theorem answers_tagFromBytes_err_iff {b : Bytes4} :
    Answers s (.tagFromBytes b) (errResponse e) ↔ e = .invalidTypeBytes ∧ isTag b = false := by
  cases hb : isTag b with
  | true => simp [answers_iff_of_answers (answers_tagFromBytes_of_isTag s hb)]
  | false => simp [answers_iff_of_answers (answers_tagFromBytes_of_not_isTag s hb)]

theorem answers_tagFromText_err_iff {x : Text} (hx : isText x = true) :
    Answers s (.tagFromText x) (errResponse e) ↔
      (e = .invalidLength ∧ x.length ≠ 4) ∨
      (e = .invalidCharacter ∧ x.length = 4 ∧ ∃ ch ∈ x, isAsciiLetter ch = false) := by
  obtain ⟨hlength, hletter, hok⟩ := tagFromTextTestsLengthThenLetters s x hx
  by_cases hlen : x.length = 4
  · by_cases hch : ∃ ch ∈ x, isAsciiLetter ch = false
    · simp [answers_iff_of_answers (hletter hlen hch), hlen, hch]
    · obtain ⟨c0, c1, c2, c3, heq⟩ := List.length_eq_four.mp hlen
      obtain ⟨h, -⟩ := hok c0 c1 c2 c3 heq (by simpa using hch)
      simp [answers_iff_of_answers h, hlen, hch]
  · simp [answers_iff_of_answers (hlength hlen), hlen]

theorem answers_chunkDataAsText_err_iff {c : Chunk} (hc : isChunk s.params c = true) :
    Answers s (.chunkDataAsText c) (errResponse e) ↔ e = .notUtf8 ∧ utf8Decode c.data = none := by
  cases hx : utf8Decode c.data with
  | some x => simp [answers_iff_of_answers (answers_chunkDataAsText_of_some hc hx)]
  | none => simp [answers_iff_of_answers (answers_chunkDataAsText_of_none hc hx)]

end

/-- Which errors are the response to a buffer: one branch each, with the tests that stand before it. -/
theorem errResponse_eq_parseResponse_iff {p : LenPolicy} {f : Bytes} {e : Err} :
    errResponse e = parseResponse p f ↔
      (e = .truncated ∧ f.length < 12) ∨
      (e = .invalidLength ∧ p = .strict ∧ 12 ≤ f.length ∧ (be32 (fieldAt f 0)).toNat ≠ f.length - 12) ∨
      (e = .invalidTypeBytes ∧ 12 ≤ f.length ∧ isTag (fieldAt f 4) = false ∧
        (p = .strict → (be32 (fieldAt f 0)).toNat = f.length - 12)) ∨
      (e = .checksumMismatch ∧ 12 ≤ f.length ∧ isTag (fieldAt f 4) = true ∧
        (p = .strict → (be32 (fieldAt f 0)).toNat = f.length - 12) ∧
        crc32 (slice f 4 (f.length - 4)) ≠ be32 (fieldAt f (f.length - 4))) := by
  rw [parseResponse]
  rcases Nat.lt_or_ge f.length 12 with hshort | hlong
  · simp [hshort, Nat.not_le_of_lt hshort]
  rw [if_neg (Nat.not_lt_of_le hlong)]
  split_ifs with hlen ht hcrc
  · simp [hlong, hlen]
  · simp [hlong, ht, hcrc, eq_false hlen]
  all_goals have hdeclared := not_and_not_right.mp hlen
  · simp [hlong, ht, hcrc, eq_false hlen, eq_true hdeclared]
  · simp [hlong, ht, eq_false hlen, eq_true hdeclared]

/-- Settles O39: three operations raise errors of their own tests, CHUNK_PARSE those of its steps, and the column of
every other operation is empty. -/
theorem eachErrorExactlyWhenItsCauseHolds : Obligations.EachErrorExactlyWhenItsCauseHolds := by
  refine ⟨rfl, fun s i hwf => ?_⟩
  cases i with
  | tagFromBytes b => simp [answers_tagFromBytes_err_iff]
  | tagFromText x => simp [answers_tagFromText_err_iff hwf]
  | chunkDataAsText c => simp [answers_chunkDataAsText_err_iff hwf]
  | chunkParse f =>
    have hf : f.length ≤ s.params.maxPayload.toNat + 12 := of_decide_eq_true hwf
    simp [answers_iff_of_answers (answers_chunkParse hf), errResponse_eq_parseResponse_iff]
  | _ => simp [mt mem_raisable_of_answers, raisable]

end Sys2Proof
end

section
/-! PROOFS. Reset and the port (spec/70_reset_and_hazards.md): reset makes the CORE idle (R140) and abandons the request
in flight (R141), and the port holds one request at a time (R145). -/

namespace Sys2Proof

open Machine

/-- Settles O2: the reset state is idle with the same parameters, so the request issued again is stepped with the request
and the parameters of the original state, and that is all its response depends on. -/
theorem resetAbandonsTheRequestInFlight : Obligations.ResetAbandonsTheRequestInFlight := by
  intro s r hr
  refine ⟨State.assertReset_response s, ?_⟩
  rw [transact_of_idle (State.assertReset_inFlight s)]
  exact visible_step_congr (State.assertReset_params s) rfl hr

/-- An idle CORE accepts a request, and the port is cleared. -/
theorem issue_of_idle {s : State} (h : s.inFlight = none) (r : Request) :
    s.issue r = .next { s with inFlight := some r, response := none } := by
  simp only [State.issue, h]

/-- A CORE with a request in flight refuses another. -/
theorem issue_of_inFlight {s : State} {q : Request} (h : s.inFlight = some q) (r : Request) :
    s.issue r = .refused .requestInFlight := by
  simp only [State.issue, h]

/-- Settles O1: the reset state is idle by its fields, and an idle CORE accepts any request. -/
theorem resetMakesTheCoreIdle : Obligations.ResetMakesTheCoreIdle := by
  refine ⟨rfl, rfl, rfl, fun s => ?_⟩
  have hidle : s.assertReset.inFlight = none := State.assertReset_inFlight s
  exact ⟨hidle, State.assertReset_response s, State.assertReset_params s,
    fun r => ⟨_, issue_of_idle hidle r, rfl, State.assertReset_params s⟩⟩

/-- Settles O3: the port tests only whether a request is in flight. -/
theorem oneRequestInFlight : Obligations.OneRequestInFlight := fun _ r =>
  ⟨fun hidle => ⟨_, issue_of_idle hidle r, rfl, rfl, rfl⟩, fun _ hbusy => issue_of_inFlight hbusy r⟩

end Sys2Proof
end
